-- ==== Sys2Proof/Word.lean ====
section
/-! DEFINITION. The word types of the MV-3 and the two small containers for "one of each per axis" and "one of
each per link" (00_scope.md, Table 0-1 and Conventions). Bit vectors stand only where the manual treats a value as
bits: bytes on a station link, the 16-bit CRC register, the 16-bit notice mask, the wrapping table version, Second
Number and sequence number. Every other quantity is an exact integer (00_scope.md, Arithmetic). -/

namespace Sys2Proof

/-- One byte of a station link (R142). -/
abbrev Byte := BitVec 8
/-- A 16-bit quantity: CRC register (R143), notice mask (R175), table version (R106). -/
abbrev Half := BitVec 16
/-- A 32-bit wrapping quantity: Second Number (R8) or sequence number (R126). -/
abbrev Word := BitVec 32

/-- The three station links; no link is privileged (00_scope.md). -/
inductive Link where
  | A | B | C
deriving DecidableEq, Repr

/-- The three field components. -/
inductive Axis where
  | X | Y | Z
deriving DecidableEq, Repr

/-- The two thermometer channels (chapter 4). -/
inductive Channel where
  | TS | TO
deriving DecidableEq, Repr

/-- One value for each station link. -/
structure PerLink (α : Type) where
  a : α
  b : α
  c : α
deriving DecidableEq, Repr

/-- One value for each axis. -/
structure PerAxis (α : Type) where
  x : α
  y : α
  z : α
deriving DecidableEq, Repr

def PerLink.get {α : Type} (p : PerLink α) : Link → α
  | .A => p.a
  | .B => p.b
  | .C => p.c

def PerLink.modify {α : Type} (p : PerLink α) (l : Link) (f : α → α) : PerLink α :=
  match l with
  | .A => { p with a := f p.a }
  | .B => { p with b := f p.b }
  | .C => { p with c := f p.c }

def PerLink.map {α β : Type} (p : PerLink α) (f : α → β) : PerLink β := ⟨f p.a, f p.b, f p.c⟩

def PerLink.fill {α : Type} (v : α) : PerLink α := ⟨v, v, v⟩

def PerAxis.get {α : Type} (p : PerAxis α) : Axis → α
  | .X => p.x
  | .Y => p.y
  | .Z => p.z

def PerAxis.modify {α : Type} (p : PerAxis α) (a : Axis) (f : α → α) : PerAxis α :=
  match a with
  | .X => { p with x := f p.x }
  | .Y => { p with y := f p.y }
  | .Z => { p with z := f p.z }

def PerAxis.map {α β : Type} (p : PerAxis α) (f : α → β) : PerAxis β := ⟨f p.x, f p.y, f p.z⟩

def PerAxis.fill {α : Type} (v : α) : PerAxis α := ⟨v, v, v⟩

end Sys2Proof
end

