-- ==== Sys2Proof/Syntax.lean ====
section
/-! DEFINITION. The commands of the MV-3: one constructor of Instr for each row of spec/opcode_table.json.
The table gives the rows no fields; the operands are those the rules of each row need.

`wait` is the number of ticks of the reference oscillator that pass, before this command, since the command taken
last (R1: every instant is a tick; assumption log 1). A command whose instant the machine itself fixes (a boundary,
a strobe, the end of a conversion, ...) carries no wait: its meaning lets exactly the ticks pass that are missing.
Two commands of one instant stand in the queue in the order in which they are taken, so every "either order may
occur" of the manual is a choice of the sender. -/

namespace Sys2Proof

/-- What a thermometer converter delivers (R61): a signed value in 0.01 °C, or NO-CONVERSION. -/
inductive ConvResult where
  | value (v : Int)
  | noConversion
deriving DecidableEq, Repr

/-- The image found after a power loss during a store write (R123): the image before the write, the image of the
write, or an image whose CRC fails. -/
inductive LossImage where
  | before
  | written
  | crcFails
deriving DecidableEq, Repr

/-- The stop bit of a byte (R145). -/
inductive StopBit where
  /-- The byte is received. -/
  | marking (byte : Byte)
  /-- The byte is held undecided; its data bits reach no rule. -/
  | spacing
deriving DecidableEq, Repr

/-- One constructor for each row of spec/opcode_table.json. -/
inductive Instr where
  -- resets and power
  | powerOnReset
  | resetRequest (wait : Nat)
  | warmReset
  -- the epoch timer's instants
  | ordinaryBoundary
  | epochOutEnd
  | strobe (codeX codeY codeZ : Int) (disturb : Bool)
  | midpointMark
  -- inputs and completions
  | ppsEdge (wait : Nat)
  | conversionEnd (ch : Channel) (result : ConvResult)
  | markLineEdge (wait : Nat)
  | idleExpiry
  | storeWriteEnd (wait : Nat) (success : Bool)
  -- the lines of a station link
  | readyChange (wait : Nat) (link : Link) (level : Bool)
  | framingError (wait : Nat) (link : Link)
  | interByteTimeout (link : Link)
  | badFrame (wait : Nat) (link : Link) (byte : Byte)
  | goodFrame (wait : Nat) (link : Link) (byte : Byte)
  | lineBreak (wait : Nat) (link : Link)
  | breakEnd (wait : Nat) (link : Link)
  -- the transmitter of a station link
  | replyBegin (link : Link)
  | replySent (wait : Nat) (link : Link)
  | transferFrameBegin (link : Link)
  | transferFrameDelivered (wait : Nat) (link : Link)
  | streamFrameBegin (link : Link)
  | streamFrameDelivered (wait : Nat) (link : Link)
  -- the station commands, each handed to its link's queue with its TAG and payload
  | unknownKind (wait : Nat) (link : Link) (kind tag : Byte) (payload : List Byte)
  | readRecords (wait : Nat) (link : Link) (tag : Byte) (payload : List Byte)
  | stream (wait : Nat) (link : Link) (tag : Byte) (payload : List Byte)
  | seek (wait : Nat) (link : Link) (tag : Byte) (payload : List Byte)
  | readStatus (wait : Nat) (link : Link) (tag : Byte) (payload : List Byte)
  | readNotice (wait : Nat) (link : Link) (tag : Byte) (payload : List Byte)
  | setNoticeMask (wait : Nat) (link : Link) (tag : Byte) (payload : List Byte)
  | mark (wait : Nat) (link : Link) (tag : Byte) (payload : List Byte)
  | readMark (wait : Nat) (link : Link) (tag : Byte) (payload : List Byte)
  | setMarkLine (wait : Nat) (link : Link) (tag : Byte) (payload : List Byte)
  | labelNextSecond (wait : Nat) (link : Link) (tag : Byte) (payload : List Byte)
  | setOffset (wait : Nat) (link : Link) (tag : Byte) (payload : List Byte)
  | openEdit (wait : Nat) (link : Link) (tag : Byte) (payload : List Byte)
  | writeKnot (wait : Nat) (link : Link) (tag : Byte) (payload : List Byte)
  | writeBand (wait : Nat) (link : Link) (tag : Byte) (payload : List Byte)
  | writeBias (wait : Nat) (link : Link) (tag : Byte) (payload : List Byte)
  | writeHoldoverRate (wait : Nat) (link : Link) (tag : Byte) (payload : List Byte)
  | commit (wait : Nat) (link : Link) (tag : Byte) (payload : List Byte)
  | abandon (wait : Nat) (link : Link) (tag : Byte) (payload : List Byte)
  | lockCalibration (wait : Nat) (link : Link) (tag : Byte) (payload : List Byte)
  | readTable (wait : Nat) (link : Link) (tag : Byte) (payload : List Byte)
  | setBaseline (wait : Nat) (link : Link) (tag : Byte) (payload : List Byte)
  -- bytes of a frame, and the loss of power
  | byteReceived (wait : Nat) (link : Link) (stop : StopBit)
  | powerLoss (wait : Nat) (found : LossImage)
deriving DecidableEq, Repr

end Sys2Proof
end

