-- ==== Sys2Proof/Decode.lean ====
section
/-! DEFINITION. The command that a word of spec/opcode_table.json spells. The table gives no row of this hardware
any bits ("fields" is empty in every row), so no word spells a command. The frames that stations send are read by
the receiver of Machine/Receiver.lean (R142 to R149), not here. -/

namespace Sys2Proof

/-- No row of the table gives bits, so every word is read as no command. -/
def decodeTableWord (_nbits _w : Nat) : Option Instr := none

end Sys2Proof
end

