-- ==== Sys2Proof/Machine/Types.lean ====
section
/-! DEFINITION. The types of the MV-3's state, block by block, with the manual's names and each field's rule. -/

namespace Sys2Proof.Machine

/-! ## Names of states, modes and codes -/

/-- R16. -/
inductive LabelState where
  | unlabelled | labelled
deriving DecidableEq, Repr

/-- The four clock states (chapter 2). -/
inductive ClockState where
  | free | acquire | track | holdover
deriving DecidableEq, Repr

/-- Thermometer health (Table 4-2). -/
inductive Health where
  | none | good | held | stale
deriving DecidableEq, Repr

/-- Band modes (Table 4-6). -/
inductive BandMode where
  | interp | hold | void
deriving DecidableEq, Repr

/-- Offset mode (Table 3-1). -/
inductive OffsetMode where
  | auto | fixed
deriving DecidableEq, Repr

/-- The kind of a step in a STEP notice (R12). -/
inductive StepKind where
  | phase | label | phaseAndLabel
deriving DecidableEq, Repr

/-- What made a capture (Table 10-2). -/
inductive MarkSource where
  | line | command
deriving DecidableEq, Repr

/-- Rows of the Correction Table (R69). -/
inductive RowName where
  | X | Y | Z | OSC
deriving DecidableEq, Repr

/-- Status codes of replies (Table 8-4). -/
inductive Status where
  | ok | adjusted | range | busy | locked | noEdit | conflict | unknown | length | storeFault
deriving DecidableEq, Repr

/-- The commands of Table 8-3. -/
inductive Kind where
  | readRecords | stream | seek | readStatus | readNotice | setNoticeMask | mark | readMark | setMarkLine
  | labelNextSecond | setOffset | openEdit | writeKnot | writeBand | writeBias | writeHoldoverRate
  | commit | abandon | lockCalibration | readTable | setBaseline
deriving DecidableEq, Repr

/-! ## Epoch Timer (Table 1-1) -/

structure EpochTimer where
  /-- Ticks elapsed since the boundary; `len` only at the instant at which the next boundary is due and not yet
  taken (`EpochTimer.position` is the register of Table 1-1, 0..L − 1). -/
  tickPos : Nat
  /-- The timer's instant at this very tick position (a strobe or the midpoint mark) has been issued. -/
  issued : Bool
  /-- L, the length formed at the interval's boundary. -/
  len : Nat
  /-- Phase accumulator A. -/
  acc : Int
  pendingAdj : Option Int
  /-- y_temp in use. -/
  yTemp : Int
  /-- Second Number. -/
  sn : Word
  label : LabelState
  armed : Option Word
  /-- Label-conflict flag. -/
  conflict : Bool
  /-- EPOCH OUT remaining; the output is asserted while this is above 0 (R9). -/
  epochOutLeft : Nat
deriving DecidableEq, Repr

/-! ## Discipline Controller (Table 2-1) -/

structure Discipline where
  clock : ClockState
  yDisc : Int
  freqLimit : Bool
  good : Nat
  outlierRun : Nat
  missingRun : Nat
  trained : Bool
  lastPhase : Option Int
  /-- Time uncertainty U, in ns. -/
  u : Nat
  /-- The boundary of the open capture window has arrived (R20). -/
  windowArrived : Bool
  /-- An edge has been measured in the open capture window (R22). -/
  windowMeasured : Bool
  spurious : Nat
  outliers : Nat
deriving DecidableEq, Repr

/-! ## Axis Channels (Tables 3-1 and 3-2) -/

structure Reading where
  axis : Axis
  sn : Word
  k : Nat
  /-- Residual r. -/
  residual : Int
  /-- The offset index under which the code was converted (R44). -/
  index : Int
  sat : Bool
  settle : Bool
  limit : Bool
  disturb : Bool
deriving DecidableEq, Repr

structure AxisChannel where
  index : Int
  mode : OffsetMode
  settle : Nat
  latest : Option Reading
deriving DecidableEq, Repr

/-- What a SET OFFSET that names an axis and a mode sets there: mode AUTO (R55), mode FIXED with its index, or, where that
index lies outside −6..+6, nothing (R54). -/
inductive OffsetChange where
  | auto
  | fixed (m : Int)
  | refused
deriving DecidableEq, Repr

/-- A SET OFFSET of this very instant: its link, the channel as it stood before it, and what it set (R86). -/
structure Setting where
  link : Link
  before : AxisChannel
  change : OffsetChange
deriving DecidableEq, Repr

/-! ## Thermometer Channels (Table 4-1) -/

structure Thermometer where
  /-- Conversion in progress, with the ticks that are left of it (R61). -/
  conversion : Option Nat
  raw : Option ConvResult
  held : Option Int
  health : Health
  faults : Nat
deriving DecidableEq, Repr

/-! ## Calibration Unit and Calibration Store (Tables 4-5, 6-1, 6-3, 6-4) -/

structure Knot where
  g : Int
  o : Int
deriving DecidableEq, Repr

structure Row where
  knots : Vector Knot 17
  bands : Vector BandMode 16
deriving DecidableEq, Repr

structure Table where
  x : Row
  y : Row
  z : Row
  osc : Row
deriving DecidableEq, Repr

/-- What an edit copies, writes and commits: the table, the base biases and the holdover rate (R107). -/
structure CalSet where
  table : Table
  bias : PerAxis Int
  h : Nat
deriving DecidableEq, Repr

/-- The edit state with its holder, shadow and idle timer. The shadow exists only in EDITING and COMMITTING, the
timer runs only in EDITING (R108). `broken`: the holder's link has had a break since COMMIT (R116). -/
inductive Edit where
  | none
  | editing (holder : Link) (shadow : CalSet) (idle : Nat)
  | committing (holder : Link) (shadow : CalSet) (broken : Bool)
deriving DecidableEq, Repr

structure CalUnit where
  active : CalSet
  version : Half
  configDefault : Bool
  baseline : PerAxis Int
  edit : Edit
  lock : Bool
  storeStale : Bool
  /-- OSC-VOID and OSC-CLAMP of the y_temp in use (R78). -/
  oscVoid : Bool
  oscClamp : Bool
deriving DecidableEq, Repr

/-- The items of a store image (Table 6-4) without their CRC. -/
structure StoreContents where
  cal : CalSet
  version : Half
  configDefault : Bool
  baseline : PerAxis Int
deriving DecidableEq, Repr

/-- The stored image. The manual gives the store's CRC no algorithm: the model holds whether it matches. Band modes
are held decoded; `modesGood` says that every stored mode code is one of Table 4-6 (R71). -/
structure StoreImage where
  contents : StoreContents
  modesGood : Bool
  crcGood : Bool
deriving DecidableEq, Repr

inductive WriteKind where
  | commit | baseline
deriving DecidableEq, Repr

structure StoreWrite where
  kind : WriteKind
  contents : StoreContents
  /-- Ticks since the write started (R119). -/
  elapsed : Nat
deriving DecidableEq, Repr

structure Store where
  image : StoreImage
  inFlight : Option StoreWrite
  commitWaiting : Bool
  baselinePending : Bool
deriving DecidableEq, Repr

/-! ## Record Assembler (Tables 5-1 and 5-4) -/

structure Slot where
  /-- Centre: false is NEXT, true is ARRIVED. -/
  arrived : Bool
  sn : Word
  label : Option LabelState
  timeStep : Bool
  labelStep : Bool
  readings : PerAxis (List Reading)
  disturb : Bool
deriving DecidableEq, Repr

structure Assembler where
  slot : Option Slot
  versionLast : Half
  baselineChange : Bool
deriving DecidableEq, Repr

structure AxisRecord where
  value : Option Int
  count : Nat
  valid : Nat
  index : Int
  satSeen : Bool
  stepped : Bool
  degraded : Bool
  limit : Bool
  uncorrected : Bool
  tempClamp : Bool
deriving DecidableEq, Repr

/-- A second record as it leaves the Record Assembler, without its sequence number (R91). -/
structure Record where
  sn : Word
  label : LabelState
  clock : ClockState
  u : Nat
  version : Half
  tsValue : Option Int
  tsHealth : Health
  toValue : Option Int
  toHealth : Health
  timeStep : Bool
  labelStep : Bool
  disturbed : Bool
  calibChanged : Bool
  baselineChanged : Bool
  configDefault : Bool
  axes : PerAxis AxisRecord
deriving DecidableEq, Repr

/-! ## Record Ring (Table 7-1) -/

structure SeqRecord where
  seq : Word
  record : Record
deriving DecidableEq, Repr

/-- The records in sequence order, oldest first. The record count is the length of the list (R125). -/
structure Ring where
  records : List SeqRecord
  next : Word
deriving DecidableEq, Repr

/-! ## Captures and notices (Tables 10-1 and 10-2) -/

structure CaptureAxis where
  value : Option Int
  sat : Bool
  settle : Bool
  tempClamp : Bool
  uncorrected : Bool
deriving DecidableEq, Repr

structure Capture where
  source : MarkSource
  sn : Word
  tick : Nat
  label : LabelState
  clock : ClockState
  u : Nat
  tsValue : Option Int
  tsHealth : Health
  axes : PerAxis CaptureAxis
deriving DecidableEq, Repr

/-- What a capture is formed from besides its readings: time, clock quality, TS channel, and the base biases, active table
and baselines of the single-reading correction (R105, R177). -/
structure MarkContext where
  sn : Word
  tick : Nat
  label : LabelState
  clock : ClockState
  u : Nat
  tsValue : Option Int
  tsHealth : Health
  active : CalSet
  baseline : PerAxis Int
deriving DecidableEq, Repr

/-- The readings that a mark of a strobe's instant may still find in place of the strobe's own, and what a capture was formed
from at that strobe (R46, R177). -/
structure Replaced where
  readings : PerAxis (Option Reading)
  context : MarkContext
deriving DecidableEq, Repr

/-- A notice with its detail (Table 10-1). -/
inductive Notice where
  | clock (c : ClockState)
  | step (k : StepKind) (sn : Word)
  | gap (n : Nat)
  | temp (ch : Channel) (h : Health)
  | calib (v : Half)
  | baseline (l : Link)
  | editExpired
  | mark (s : MarkSource)
  | labelConflict
deriving DecidableEq, Repr

/-- The nine entries of a link's notice set, each absent or pending with its detail. -/
structure NoticeSet where
  clock : Option ClockState
  step : Option (StepKind × Word)
  gap : Option Nat
  temp : Option (Channel × Health)
  calib : Option Half
  baseline : Option Link
  editExpired : Bool
  mark : Option MarkSource
  labelConflict : Bool
deriving DecidableEq, Repr

/-! ## Link Controllers (Tables 8-1, 9-1 and 9-2) -/

/-- Receiver states (Table 8-2). -/
inductive RxState where
  | hunt | sync2 | header | payload | check | brk
deriving DecidableEq, Repr

structure Receiver where
  state : RxState
  /-- Bytes of the frame being received, from LEN on. -/
  partialFrame : Option (List Byte)
  /-- The receiver's CRC register (R143). -/
  crc : Half
  /-- Ticks from the last byte's stop bit, up to that of the next, in HEADER, PAYLOAD and CHECK (R149). -/
  gap : Nat
  /-- A byte's stop bit was spacing, and the line has not yet made it a framing error or a break (R145). -/
  undecided : Bool
deriving DecidableEq, Repr

structure Command where
  kind : Byte
  tag : Byte
  payload : List Byte
deriving DecidableEq, Repr

structure Reply where
  status : Status
  payload : List Byte
deriving DecidableEq, Repr

inductive TransferPhase where
  | running | ended
deriving DecidableEq, Repr

/-- Transfer state (Table 9-1). Its frame in flight is the frame the transmitter sends (`Sending`). -/
structure Transfer where
  requested : Nat
  delivered : Nat
  phase : TransferPhase
deriving DecidableEq, Repr

/-- The executing slot: the command, its reply once built, and its transfer. -/
structure Executing where
  command : Command
  reply : Option Reply
  transfer : Option Transfer
deriving DecidableEq, Repr

/-- What the frame on the transmit line is. `owned`: the command it belongs to is still in the executing slot (a
break removes the command and leaves the frame, R150). -/
inductive FrameKind where
  | reply (owned : Bool)
  | transfer (owned : Bool) (captured : SeqRecord)
  | stream (captured : SeqRecord)
deriving DecidableEq, Repr

structure Sending where
  what : FrameKind
  /-- The whole frame, from SYNC1 through the CRC. -/
  bytes : List Byte
deriving DecidableEq, Repr

structure LinkState where
  /-- The READY input. -/
  ready : Bool
  rx : Receiver
  executing : Option Executing
  waiting : Option Command
  displaced : Nat
  /-- The transmitter: none is IDLE. -/
  tx : Option Sending
  badFrames : Nat
  framingErrors : Nat
  timeouts : Nat
  breaks : Nat
  displacedTotal : Nat
  cursor : Word
  stream : Bool
  streamTag : Byte
  notices : NoticeSet
  mask : Half
  latch : Option Capture
  ignored : Nat
  markLine : Bool
deriving DecidableEq, Repr

/-! ## Sampled inputs -/

/-- Ticks since each sampled input was last known to be high, counted up to 2: an edge is a tick found high after a
tick found low, so it needs two ticks (R18, R19, R178). -/
structure Samples where
  pps : Nat
  mark : Nat
  reset : Nat
deriving DecidableEq, Repr

end Sys2Proof.Machine
end

