-- ==== Sys2Proof/Machine/Operands.lean ====
section
/-! DEFINITION. Fields of command payloads, the code values of Table 11-2, the big-endian byte layouts, the frame CRC
and the rounding of the manual's arithmetic (00_scope.md, Conventions; chapter 11; R143). -/

namespace Sys2Proof.Machine

/-! ## Arithmetic -/

/-- a / b to the nearest integer, ties away from zero, for b above 0 (00_scope.md, Arithmetic). -/
def roundDiv (a b : Int) : Int :=
  if 0 ≤ a then (2 * a + b) / (2 * b) else -((2 * (-a) + b) / (2 * b))

/-- v clamped to lo..hi (00_scope.md, Arithmetic). -/
def clampTo (lo hi v : Int) : Int := max lo (min hi v)

/-! ## Reading the fields of a payload -/

/-- The unsigned byte at offset i. -/
def u8At (p : List Byte) (i : Nat) : Byte := p.getD i 0

/-- The 16-bit value at offset i, high byte first. -/
def u16At (p : List Byte) (i : Nat) : Half := u8At p i ++ u8At p (i + 1)

/-- The 32-bit value at offset i, high byte first. -/
def u32At (p : List Byte) (i : Nat) : Word := u16At p i ++ u16At p (i + 2)

/-- The signed byte at offset i. -/
def s8At (p : List Byte) (i : Nat) : Int := (u8At p i).toInt

/-- The signed 32-bit value at offset i. -/
def s32At (p : List Byte) (i : Nat) : Int := (u32At p i).toInt

/-! ## Writing the fields of a payload -/

def be16 (v : Half) : List Byte := [v.extractLsb' 8 8, v.extractLsb' 0 8]

def be32 (v : Word) : List Byte :=
  [v.extractLsb' 24 8, v.extractLsb' 16 8, v.extractLsb' 8 8, v.extractLsb' 0 8]

def byteOf (n : Nat) : Byte := BitVec.ofNat 8 n
def nat16 (n : Nat) : List Byte := be16 (BitVec.ofNat 16 n)
def nat32 (n : Nat) : List Byte := be32 (BitVec.ofNat 32 n)
def int8 (v : Int) : Byte := BitVec.ofInt 8 v
def int16 (v : Int) : List Byte := be16 (BitVec.ofInt 16 v)
def int32 (v : Int) : List Byte := be32 (BitVec.ofInt 32 v)

/-- The value of bit i of a packed byte. -/
def bitAt (i : Nat) (b : Bool) : Nat := if b then 2 ^ i else 0

/-- An optional item of a fixed layout: 0 when absent (R187). -/
def optInt (v : Option Int) : Int := v.getD 0

/-! ## Codes (Table 11-2) -/

def Status.code : Status → Byte
  | .ok => 0
  | .adjusted => 1
  | .range => 2
  | .busy => 3
  | .locked => 4
  | .noEdit => 5
  | .conflict => 6
  | .unknown => 7
  | .length => 8
  | .storeFault => 9

def axisOfCode (b : Byte) : Option Axis :=
  match b.toNat with
  | 0 => some .X
  | 1 => some .Y
  | 2 => some .Z
  | _ => none

def rowOfCode (b : Byte) : Option RowName :=
  match b.toNat with
  | 0 => some .X
  | 1 => some .Y
  | 2 => some .Z
  | 3 => some .OSC
  | _ => none

def modeOfCode (b : Byte) : Option OffsetMode :=
  match b.toNat with
  | 0 => some .auto
  | 1 => some .fixed
  | _ => none

def bandOfCode (b : Byte) : Option BandMode :=
  match b.toNat with
  | 0 => some .interp
  | 1 => some .hold
  | 2 => some .void
  | _ => none

def BandMode.code : BandMode → Nat
  | .interp => 0
  | .hold => 1
  | .void => 2

def OffsetMode.code : OffsetMode → Byte
  | .auto => 0
  | .fixed => 1

def ClockState.code : ClockState → Nat
  | .free => 0
  | .acquire => 1
  | .track => 2
  | .holdover => 3

def Health.code : Health → Nat
  | .none => 0
  | .good => 1
  | .held => 2
  | .stale => 3

def LabelState.code : LabelState → Nat
  | .unlabelled => 0
  | .labelled => 1

def linkCode : Link → Byte
  | .A => 0
  | .B => 1
  | .C => 2

def MarkSource.code : MarkSource → Byte
  | .line => 0
  | .command => 1

def StepKind.code : StepKind → Byte
  | .phase => 0
  | .label => 1
  | .phaseAndLabel => 2

def channelCode : Channel → Byte
  | .TS => 0
  | .TO => 1

/-- The command a KIND byte names (R13, R53, R80, R107 to R118, R133, R162, R169, R175 to R183). -/
def Kind.ofByte (b : Byte) : Option Kind :=
  match b.toNat with
  | 0x10 => some .readRecords
  | 0x11 => some .stream
  | 0x12 => some .seek
  | 0x20 => some .readStatus
  | 0x21 => some .readNotice
  | 0x22 => some .setNoticeMask
  | 0x23 => some .mark
  | 0x24 => some .readMark
  | 0x25 => some .setMarkLine
  | 0x30 => some .labelNextSecond
  | 0x40 => some .setOffset
  | 0x50 => some .openEdit
  | 0x51 => some .writeKnot
  | 0x52 => some .writeBand
  | 0x53 => some .writeBias
  | 0x54 => some .writeHoldoverRate
  | 0x55 => some .commit
  | 0x56 => some .abandon
  | 0x57 => some .lockCalibration
  | 0x58 => some .readTable
  | 0x59 => some .setBaseline
  | _ => none

/-- The KIND byte of a command. -/
def Kind.code : Kind → Byte
  | .readRecords => 0x10
  | .stream => 0x11
  | .seek => 0x12
  | .readStatus => 0x20
  | .readNotice => 0x21
  | .setNoticeMask => 0x22
  | .mark => 0x23
  | .readMark => 0x24
  | .setMarkLine => 0x25
  | .labelNextSecond => 0x30
  | .setOffset => 0x40
  | .openEdit => 0x50
  | .writeKnot => 0x51
  | .writeBand => 0x52
  | .writeBias => 0x53
  | .writeHoldoverRate => 0x54
  | .commit => 0x55
  | .abandon => 0x56
  | .lockCalibration => 0x57
  | .readTable => 0x58
  | .setBaseline => 0x59

/-- Payload lengths of the commands (Table 8-3). -/
def Kind.payloadLength : Kind → Nat
  | .readRecords => 1
  | .stream => 1
  | .seek => 5
  | .readStatus => 0
  | .readNotice => 0
  | .setNoticeMask => 2
  | .mark => 0
  | .readMark => 0
  | .setMarkLine => 1
  | .labelNextSecond => 4
  | .setOffset => 3
  | .openEdit => 0
  | .writeKnot => 10
  | .writeBand => 3
  | .writeBias => 5
  | .writeHoldoverRate => 2
  | .commit => 0
  | .abandon => 0
  | .lockCalibration => 0
  | .readTable => 3
  | .setBaseline => 12

/-! ## The frame CRC (R143) -/

/-- One bit of the CRC register: polynomial x^16 + x^12 + x^5 + 1, most significant bit first. -/
def crcBit (c : Half) : Half := if c.msb then (c <<< 1) ^^^ 0x1021 else c <<< 1

/-- One byte enters the register, most significant bit first. -/
def crcByte (c : Half) (b : Byte) : Half :=
  crcBit (crcBit (crcBit (crcBit (crcBit (crcBit (crcBit (crcBit (c ^^^ (b ++ (0 : Byte))))))))))

/-- The register at the start of a frame. -/
def crcInit : Half := 0xFFFF

/-- The register after a run of bytes. -/
def crcOf (bytes : List Byte) : Half := bytes.foldl crcByte crcInit

/-- A frame: the synchronising pair, the bytes from LEN on, and their CRC, high byte first (R142, R143). -/
def frameOf (body : List Byte) : List Byte := [0xC3, 0x3C] ++ body ++ be16 (crcOf body)

/-- A reply frame (R144): LEN counts the payload after DISPLACED. -/
def replyFrame (kind tag : Byte) (status : Status) (displaced : Nat) (payload : List Byte) : List Byte :=
  frameOf ([byteOf payload.length, kind, tag, status.code, byteOf displaced] ++ payload)

/-- A record frame: the header of a command frame (R144). -/
def recordFrame (kind tag : Byte) (payload : List Byte) : List Byte :=
  frameOf ([byteOf payload.length, kind, tag] ++ payload)

end Sys2Proof.Machine
end

