-- ==== Sys2Proof/Machine/Params.lean ====
section
/-! DEFINITION. The numbers of the manual, each named once beside the rule that states it. -/

namespace Sys2Proof.Machine

/-- Nominal ticks per second (R3). -/
abbrev nominalTicks : Int := 10000000
/-- The accumulator's modulus: units of 10^-12 to one tick (R3). -/
abbrev accModulus : Int := 100000
/-- EPOCH OUT is held for 100,000 ticks (R9). -/
abbrev epochOutTicks : Nat := 100000
/-- A conversion ends 200,000 ticks after it is ordered (R61). -/
abbrev conversionTicks : Nat := 200000
/-- Tick position of strobe k (R5). -/
def strobePos (k : Nat) : Nat := 500000 + 1000000 * k
/-- Strobes in an interval (R5). -/
abbrev strobesPerInterval : Nat := 10

/-- Bound of an accepted phase in ACQUIRE (R26). -/
abbrev acquireLimit : Nat := 50
/-- Bound of an accepted phase in TRACK and HOLDOVER (R28, R32). -/
abbrev trackLimit : Nat := 1000
/-- Frequency units for one tick of phase (R26). -/
abbrev phaseGain : Int := 100000
/-- y_disc lies within ±2,000,000 (R34). -/
abbrev yDiscLimit : Int := 2000000
/-- Accepted edges that lead from ACQUIRE to TRACK (R26). -/
abbrev goodToTrack : Nat := 16
/-- Missing windows in a run that end TRACK or ACQUIRE (R27, R30). -/
abbrev missingToLeave : Nat := 3
/-- Outliers in a run that order a phase step (R29). -/
abbrev outliersToStep : Nat := 4
/-- U in FREE, and the cap of U in HOLDOVER (R25, R31). -/
abbrev uncertaintyFree : Nat := 1000000000
/-- U in ACQUIRE (R26). -/
abbrev uncertaintyAcquire : Nat := 100000

/-- Full scale of a residual (R42). -/
abbrev fullScale : Int := 8388607
/-- Threshold of the automatic step decision (R48). -/
abbrev stepThreshold : Int := 6000000
/-- Compensation of one offset index, in pT (R51). -/
abbrev offsetUnit : Int := 2000000
/-- The offset index lies within −6..+6 (R51). -/
abbrev indexLimit : Int := 6
/-- Strobes marked SETTLE after a change of index (R47). -/
abbrev settleStrobes : Nat := 3

/-- A valid thermometer reading lies within ±6000 (R62). -/
abbrev readingLimit : Int := 6000
/-- The table spans ±4000 (R69, R73). -/
abbrev tableSpan : Int := 4000
/-- Knots stand 500 apart (R69). -/
abbrev knotStep : Int := 500
/-- Faulted samples that are still HELD (R64). -/
abbrev heldFaults : Nat := 300

/-- Terms of the Correction Table lie within ±1,000,000 (R69, R71). -/
abbrev termLimit : Int := 1000000
/-- Base biases lie within ±80,000,000 pT (R111). -/
abbrev biasLimit : Int := 80000000
/-- Baselines lie within ±10,000,000 pT (R118). -/
abbrev baselineLimit : Int := 10000000
/-- The holdover rate is at most 1000 (R111). -/
abbrev holdoverLimit : Nat := 1000
/-- Holdover rate of the default calibration (R79). -/
abbrev defaultHoldoverRate : Nat := 5
/-- A gain term counts 10^-8 (R89). -/
abbrev gainUnit : Int := 100000000
/-- An edit expires after 120 s (R108). -/
abbrev idleTicks : Nat := 1200000000
/-- A store write takes at least 200,000 ticks ... (R119). -/
abbrev writeMinTicks : Nat := 200000
/-- ... and at most 600,000 ticks (R119). -/
abbrev writeMaxTicks : Nat := 600000

/-- Capacity of the Record Ring (R125). -/
abbrev ringCapacity : Nat := 4096
/-- A transfer asks for at most 16 records (R162). -/
abbrev maxTransfer : Nat := 16
/-- The receiver's limit on LEN (R147). -/
abbrev maxLen : Nat := 64
/-- The inter-byte timeout of 50 ms (R149), in ticks of the reference oscillator (assumption log 9). -/
abbrev gapTicks : Nat := 500000

/-- A counter of 16 bits stops at 65,535 (R22, R29, R62, R160). -/
abbrev max16 : Nat := 65535
/-- A counter of 8 bits stops at 255 (R155, R180). -/
abbrev max8 : Nat := 255
/-- GAP details stop at 2^32 − 1 (R131). -/
abbrev max32 : Nat := 4294967295

/-- "Adds one and saturates" at the counter's greatest value. -/
def bump (limit n : Nat) : Nat := min limit (n + 1)

end Sys2Proof.Machine
end

