-- ==== Sys2Proof/Machine/Flags.lean ====
section
/-! DEFINITION. Every flag the manual computes: of a reading, of an axis of a record, of a notice set. -/

namespace Sys2Proof.Machine

/-! ## Flags of a reading -/

/-- SAT: the residual is at either end of its range (R42). -/
def isSaturated (r : Int) : Bool := decide (r = fullScale) || decide (r = -fullScale)

/-- LIMIT: a settled AUTO reading beyond the threshold with the index at its limit in that direction (R49). -/
def isLimited (r index : Int) : Bool :=
  (decide (stepThreshold < r) && decide (indexLimit ≤ index))
    || (decide (r < -stepThreshold) && decide (index ≤ -indexLimit))

/-- A reading is valid when it carries neither SAT nor SETTLE (R88). -/
def Reading.isValid (r : Reading) : Bool := !r.sat && !r.settle

/-! ## Axis flags of a record (R94) -/

def anySaturated (l : List Reading) : Bool := l.any (·.sat)

def anyLimited (l : List Reading) : Bool := l.any (·.limit)

/-- STEPPED: the readings do not all carry the same offset index. -/
def isStepped : List Reading → Bool
  | [] => false
  | r :: rest => rest.any (fun x => !decide (x.index = r.index))

def validCount (l : List Reading) : Nat := (l.filter Reading.isValid).length

/-- DEGRADED: the valid count is within 1..5 (R88). -/
def isDegraded (v : Nat) : Bool := decide (1 ≤ v) && decide (v ≤ 5)

/-! ## The set of kinds pending and ATTN (R174, section 11.1) -/

/-- The kind with code k is bit k − 1. -/
def NoticeSet.bits (n : NoticeSet) : Half :=
  BitVec.ofNat 16 (bitAt 0 n.clock.isSome + bitAt 1 n.step.isSome + bitAt 2 n.gap.isSome + bitAt 3 n.temp.isSome
    + bitAt 4 n.calib.isSome + bitAt 5 n.baseline.isSome + bitAt 6 n.editExpired + bitAt 7 n.mark.isSome
    + bitAt 8 n.labelConflict)

/-- Bits 9..15 of a mask name no kind and are ignored (R175, R187). -/
def maskBits (v : Half) : Half := v &&& 0x01FF

/-- ATTN is asserted while an entry is pending whose kind is enabled (R141, R174). -/
def LinkState.attn (l : LinkState) : Bool := !decide (l.notices.bits &&& l.mask = 0)

end Sys2Proof.Machine
end

