-- ==== Sys2Proof/Config.lean ====
section
/-! DEFINITION. What the manual leaves to the surroundings of the part and a machine state must nevertheless hold.
Every "either order may occur" is resolved by the order of the commands in the queue, and every value that comes from
outside (converter codes, conversion results, the outcome of a store write, the image found after a power loss) is an
operand of its command. Two choices are left to no order of whole commands: which readings a mark at the instant of a
strobe finds (R46), and whether a SET OFFSET of the instant of strobe 4 falls between the reading of its axis and the
completion (R86). One value is left unstated: the raw sample that READ STATUS sends for NO-CONVERSION (Table 11-6). These
three are the free values. -/

namespace Sys2Proof

/-- DESIGN CHOICE (assumption log 3, unsafe): the level of READY at State.reset. READY is driven by the station (R140) and
the manual gives it no level at power-on; the model starts with READY negated on every link. -/
def Config.readyAtPowerOn : Bool := false

/-- DESIGN CHOICE (assumption log 4, unsafe): the store of State.reset has never been written, so its CRC fails (R121). -/
def Config.storeCrcAtPowerOn : Bool := false

/-- Free value (assumption log 12): at free choice n, a capture made at the instant of a strobe that has been taken finds
the new reading on this axis (R46), or else the previous one. Nothing constrains it. -/
opaque Config.newReadingFound : Nat → Axis → Bool

/-- Free value (assumption log 20): at free choice n, how many SET OFFSETs of the instant of strobe 4 come between the
reading of this axis and the completion (R86), the latest ones. Nothing constrains it. -/
opaque Config.lateSettings : Nat → Axis → Nat

/-- Free value (assumption log 19): the two raw-sample bytes of READ STATUS for a channel whose last raw sample is
NO-CONVERSION, at a Second Number and tick position. Table 11-6 gives them no value. Nothing constrains it. -/
opaque Config.rawOfNoConversion : Channel → Word → Nat → Half

end Sys2Proof
end

