-- ==== Sys2Proof/Machine/Initial.lean ====
section
/-! DEFINITION. What each block holds right after a reset, block by block, and the load of the store image. -/

namespace Sys2Proof.Machine

/-- Table 1-7. -/
def EpochTimer.atReset : EpochTimer where
  tickPos := 0
  issued := false
  len := 10000000
  acc := 0
  pendingAdj := none
  yTemp := 0
  sn := 0
  label := .unlabelled
  armed := none
  conflict := false
  epochOutLeft := epochOutTicks

/-- Table 2-4; the window opened at the reset boundary has that boundary as its own (R20). -/
def Discipline.atReset : Discipline where
  clock := .free
  yDisc := 0
  freqLimit := false
  good := 0
  outlierRun := 0
  missingRun := 0
  trained := false
  lastPhase := none
  u := uncertaintyFree
  windowArrived := true
  windowMeasured := false
  spurious := 0
  outliers := 0

/-- Table 3-3. -/
def AxisChannel.atReset : AxisChannel where
  index := 0
  mode := .auto
  settle := 0
  latest := none

/-- Table 4-3: the conversion ordered at the reset boundary is in progress. -/
def Thermometer.atReset : Thermometer where
  conversion := some conversionTicks
  raw := none
  held := none
  health := .none
  faults := 0

/-! ## Default calibration and the load of the store image -/

def Row.default : Row where
  knots := Vector.replicate 17 ⟨0, 0⟩
  bands := Vector.replicate 16 .interp

/-- The default calibration (Table 4-9). -/
def StoreContents.default : StoreContents where
  cal := {
    table := ⟨Row.default, Row.default, Row.default, Row.default⟩
    bias := PerAxis.fill 0
    h := defaultHoldoverRate }
  version := 0
  configDefault := true
  baseline := PerAxis.fill 0

/-- A value lies within ±limit. -/
def within (limit v : Int) : Bool := decide (-limit ≤ v ∧ v ≤ limit)

/-- The terms of an axis row (Table 4-5). -/
def Row.termsInRange (r : Row) : Bool :=
  r.knots.toList.all (fun k => within termLimit k.g && within termLimit k.o)

/-- The terms of the OSC row: G is not used and 0 (Table 4-5). -/
def Row.oscInRange (r : Row) : Bool :=
  r.knots.toList.all (fun k => decide (k.g = 0) && within termLimit k.o)

def PerAxis.allWithin (limit : Int) (p : PerAxis Int) : Bool :=
  within limit p.x && within limit p.y && within limit p.z

/-- The table, base biases and holdover rate lie within their ranges (R71). -/
def CalSet.inRange (c : CalSet) : Bool :=
  c.table.x.termsInRange && c.table.y.termsInRange && c.table.z.termsInRange && c.table.osc.oscInRange
    && PerAxis.allWithin biasLimit c.bias && decide (c.h ≤ holdoverLimit)

/-- Every item of the image lies within its range (R71). -/
def StoreImage.inRange (i : StoreImage) : Bool :=
  i.contents.cal.inRange && i.modesGood && PerAxis.allWithin baselineLimit i.contents.baseline

/-- What a reset loads: the image if its CRC is good and every item is in range, the default calibration with
CONFIG-DEFAULT set otherwise (R121, R71). -/
def StoreImage.loaded (i : StoreImage) : StoreContents :=
  if i.crcGood && i.inRange then i.contents else StoreContents.default

/-- Table 6-5 with the load of R121; OSC-VOID is set and OSC-CLAMP clear until the first boundary (R78). -/
def CalUnit.atReset (i : StoreImage) : CalUnit where
  active := i.loaded.cal
  version := i.loaded.version
  configDefault := i.loaded.configDefault
  baseline := i.loaded.baseline
  edit := .none
  lock := false
  storeStale := false
  oscVoid := true
  oscClamp := false

/-- Table 6-5: the image is kept, and no write is in flight, waiting or pending. -/
def Store.atReset (i : StoreImage) : Store where
  image := i
  inFlight := none
  commitWaiting := false
  baselinePending := false

/-- The slot centred on the reset boundary (R102). -/
def Slot.atReset : Slot where
  arrived := true
  sn := 0
  label := some .unlabelled
  timeStep := false
  labelStep := false
  readings := PerAxis.fill []
  disturb := false

/-- Table 5-8; the version last used is the one loaded (R102). -/
def Assembler.atReset (version : Half) : Assembler where
  slot := some Slot.atReset
  versionLast := version
  baselineChange := false

/-- The ring after power-on (R138). -/
def Ring.empty : Ring := ⟨[], 0⟩

def NoticeSet.empty : NoticeSet where
  clock := none
  step := none
  gap := none
  temp := none
  calib := none
  baseline := none
  editExpired := false
  mark := none
  labelConflict := false

/-- A receiver that waits for SYNC1. -/
def Receiver.hunting : Receiver where
  state := .hunt
  partialFrame := none
  crc := 0xFFFF
  gap := 0
  undecided := false

/-- Tables 8-5 and 10-4. READY is an input and the cursor is given by R138 and R139: both are handed in. -/
def LinkState.atReset (ready : Bool) (cursor : Word) : LinkState where
  ready := ready
  rx := Receiver.hunting
  executing := none
  waiting := none
  displaced := 0
  tx := none
  badFrames := 0
  framingErrors := 0
  timeouts := 0
  breaks := 0
  displacedTotal := 0
  cursor := cursor
  stream := false
  streamTag := 0
  notices := NoticeSet.empty
  mask := 0
  latch := none
  ignored := 0
  markLine := false

/-- After power-on the sample before the first tick is taken as high (R18, R19, R178). The manual does not say which tick is
the first: here it is tick position 0, the instant of the reset itself, so that an edge can be recognised at position 1 and
not before (DESIGN CHOICE, assumption log 13). -/
def Samples.atPowerOn : Samples := ⟨1, 1, 1⟩

/-- The image of a store that has never been written: its CRC fails (R121). Its contents are never read. -/
def StoreImage.neverWritten : StoreImage := ⟨StoreContents.default, true, Config.storeCrcAtPowerOn⟩

end Sys2Proof.Machine
end

