-- ==== Sys2Proof/Machine/State.lean ====
section
/-! DEFINITION. The state of the MV-3, the reasons a step can stop, and the state right after power-on reset. -/

namespace Sys2Proof.Machine

/-- The machine stops with a fault: never. The manual describes no behaviour that stops the MV-3, so the type has no
constructor: no command raises a fault (safe). -/
inductive Fault
deriving DecidableEq, Repr

/-- A command has no meaning. -/
inductive Refusal where
  /-- Raised by exec alone, for a row of the opcode table that has no meaning yet; no row is left so (safe). -/
  | notModelled (mnemonic : String)
deriving DecidableEq, Repr

/-- Everything the manual gives the machine. `pending` is the model's own: the commands that are waiting, first in,
first out. -/
structure State where
  /-- Power is applied (R123 speaks of its loss). -/
  powered : Bool
  epoch : EpochTimer
  disc : Discipline
  axes : PerAxis AxisChannel
  thermTS : Thermometer
  thermTO : Thermometer
  cal : CalUnit
  store : Store
  asm : Assembler
  ring : Ring
  links : PerLink LinkState
  /-- A warm reset has been requested and has not taken effect (R18). -/
  resetWaiting : Bool
  samples : Samples
  /-- The latest readings that the strobe of this very instant replaced, as far as a mark of the instant may still find them
  (R46); none once a tick has passed since, or a reply has shown what the strobe left (R183). -/
  replaced : Option Replaced
  /-- For each axis, the SET OFFSETs of this very instant, the latest first: the reading of strobe 4 may still be taken
  before them (R56, R86). Empty once a tick has passed or a READ STATUS has shown them (R183). -/
  earlier : PerAxis (List Setting)
  /-- The model's own: free choices made so far, the argument of the free values of R46 and R86. -/
  choices : Nat
  pending : List Instr
deriving DecidableEq, Repr

/-- The machine right after power-on reset, at the boundary of interval 0, with a store that has never been written
(Tables 1-7, 2-4, 3-3, 4-3, 5-8, 6-5, 7 of R139, 8-5, 10-4). -/
def State.reset : State where
  powered := true
  epoch := EpochTimer.atReset
  disc := Discipline.atReset
  axes := PerAxis.fill AxisChannel.atReset
  thermTS := Thermometer.atReset
  thermTO := Thermometer.atReset
  cal := CalUnit.atReset StoreImage.neverWritten
  store := Store.atReset StoreImage.neverWritten
  asm := Assembler.atReset StoreImage.neverWritten.loaded.version
  ring := Ring.empty
  links := PerLink.fill (LinkState.atReset Config.readyAtPowerOn 0)
  resetWaiting := false
  samples := Samples.atPowerOn
  replaced := none
  earlier := PerAxis.fill []
  choices := 0
  pending := []

end Sys2Proof.Machine
end

