-- ==== Sys2Proof/Machine/Formats.lean ====
section
/-! DEFINITION. The byte layouts of chapter 11: record payload (Table 11-4), mark capture (Table 11-5), READ STATUS
payload (Table 11-6), the parts of READ TABLE (Tables 4-10 and 11-3) and the detail of READ NOTICE (section 11.1). -/

namespace Sys2Proof.Machine

/-! ## Optional parts -/

/-- A signed optional part of 2 bytes, omitted when absent (R188). -/
def part16 : Option Int → List Byte
  | none => []
  | some v => int16 v

/-- A signed optional part of 4 bytes, omitted when absent (R188). -/
def part32 : Option Int → List Byte
  | none => []
  | some v => int32 v

/-! ## The second record (Table 11-4) -/

/-- Offset 8: clock state, label state and both healths. -/
def Record.stateByte (r : Record) : Byte :=
  byteOf (r.clock.code + 4 * r.label.code + 8 * r.tsHealth.code + 32 * r.toHealth.code)

/-- Offset 15: the record flags. -/
def Record.flagByte (r : Record) : Byte :=
  byteOf (bitAt 0 r.timeStep + bitAt 1 r.labelStep + bitAt 2 r.disturbed + bitAt 3 r.calibChanged
    + bitAt 4 r.baselineChanged + bitAt 5 r.configDefault)

/-- Offset 16: which optional parts follow. -/
def Record.presenceByte (r : Record) : Byte :=
  byteOf (bitAt 0 r.tsValue.isSome + bitAt 1 r.toValue.isSome + bitAt 2 r.axes.x.value.isSome
    + bitAt 3 r.axes.y.value.isSome + bitAt 4 r.axes.z.value.isSome)

/-- Counts, n at completion and flags of one axis: three bytes. -/
def AxisRecord.bytes (a : AxisRecord) : List Byte :=
  [byteOf (16 * a.count + a.valid), int8 a.index,
   byteOf (bitAt 0 a.satSeen + bitAt 1 a.stepped + bitAt 2 a.degraded + bitAt 3 a.limit + bitAt 4 a.uncorrected
     + bitAt 5 a.tempClamp)]

/-- The payload of a record frame: 26..42 bytes (R188). -/
def SeqRecord.payload (q : SeqRecord) : List Byte :=
  let r := q.record
  be32 q.seq ++ be32 r.sn ++ [r.stateByte] ++ nat32 r.u ++ be16 r.version ++ [r.flagByte, r.presenceByte]
    ++ r.axes.x.bytes ++ r.axes.y.bytes ++ r.axes.z.bytes
    ++ part16 r.tsValue ++ part16 r.toValue ++ part32 r.axes.x.value ++ part32 r.axes.y.value ++ part32 r.axes.z.value

/-! ## Mark capture (Table 11-5) -/

def CaptureAxis.flagByte (a : CaptureAxis) : Byte :=
  byteOf (bitAt 0 a.sat + bitAt 1 a.settle + bitAt 2 a.tempClamp + bitAt 3 a.uncorrected)

/-- A capture of 18..32 bytes (R189). -/
def Capture.bytes (c : Capture) : List Byte :=
  [c.source.code] ++ be32 c.sn ++ nat32 c.tick
    ++ [byteOf (c.clock.code + 4 * c.label.code + 8 * c.tsHealth.code)] ++ nat32 c.u
    ++ [byteOf (bitAt 0 c.tsValue.isSome + bitAt 1 c.axes.x.value.isSome + bitAt 2 c.axes.y.value.isSome
          + bitAt 3 c.axes.z.value.isSome),
        c.axes.x.flagByte, c.axes.y.flagByte, c.axes.z.flagByte]
    ++ part16 c.tsValue ++ part32 c.axes.x.value ++ part32 c.axes.y.value ++ part32 c.axes.z.value

/-! ## Details of READ NOTICE (section 11.1) -/

/-- The code of a notice's kind (Table 11-2). -/
def Notice.code : Notice → Byte
  | .clock _ => 1
  | .step _ _ => 2
  | .gap _ => 3
  | .temp _ _ => 4
  | .calib _ => 5
  | .baseline _ => 6
  | .editExpired => 7
  | .mark _ => 8
  | .labelConflict => 9

/-- The five bytes of a notice's detail; unused bytes are 0. -/
def Notice.detail : Notice → List Byte
  | .clock c => [byteOf c.code, 0, 0, 0, 0]
  | .step k sn => k.code :: be32 sn
  | .gap n => 0 :: nat32 n
  | .temp ch h => [channelCode ch, byteOf h.code, 0, 0, 0]
  | .calib v => be16 v ++ [0, 0, 0]
  | .baseline l => [linkCode l, 0, 0, 0, 0]
  | .editExpired => [0, 0, 0, 0, 0]
  | .mark s => [s.code, 0, 0, 0, 0]
  | .labelConflict => [0, 0, 0, 0, 0]

/-! ## Parts of a Correction Table row (Tables 4-10 and 11-3) -/

def Table.row (t : Table) : RowName → Row
  | .X => t.x
  | .Y => t.y
  | .Z => t.z
  | .OSC => t.osc

def Row.knot (r : Row) (k : Nat) : Knot := r.knots.getD k ⟨0, 0⟩

def Row.band (r : Row) (b : Nat) : BandMode := r.bands.getD b .interp

/-- G and O of `count` knots from knot `first` on. -/
def Row.knotBytes (r : Row) (first count : Nat) : List Byte :=
  (List.range count).flatMap (fun i => int32 (r.knot (first + i)).g ++ int32 (r.knot (first + i)).o)

/-- Byte i holds band 2i in bits 4..7 and band 2i + 1 in bits 0..3. -/
def Row.bandBytes (r : Row) : List Byte :=
  (List.range 8).map (fun i => byteOf (16 * (r.band (2 * i)).code + (r.band (2 * i + 1)).code))

/-- The companion value of a row: the base bias of its axis, or h for row OSC (R80). -/
def CalSet.companion (c : CalSet) : RowName → List Byte
  | .X => int32 c.bias.x
  | .Y => int32 c.bias.y
  | .Z => int32 c.bias.z
  | .OSC => nat32 c.h

/-- The contents of one part of a row (Table 4-10). -/
def CalSet.partBytes (c : CalSet) (row : RowName) (part : Nat) : List Byte :=
  match part with
  | 0 => (c.table.row row).knotBytes 0 6
  | 1 => (c.table.row row).knotBytes 6 6
  | _ => (c.table.row row).knotBytes 12 5 ++ (c.table.row row).bandBytes ++ c.companion row

/-! ## READ STATUS (Table 11-6) -/

/-- The tick position register, 0..L − 1 (Table 1-1). -/
def EpochTimer.position (e : EpochTimer) : Nat := min e.tickPos (e.len - 1)

/-- Offsets 0..18: the Epoch Timer. -/
def EpochTimer.statusBytes (e : EpochTimer) : List Byte :=
  be32 e.sn ++ nat32 e.position
    ++ [byteOf (e.label.code + bitAt 1 e.conflict + bitAt 2 e.armed.isSome + bitAt 3 e.pendingAdj.isSome)]
    ++ be32 (e.armed.getD 0) ++ int16 (optInt e.pendingAdj) ++ int32 e.yTemp

/-- Offsets 19..39: the Discipline Controller. -/
def Discipline.statusBytes (d : Discipline) : List Byte :=
  [byteOf d.clock.code, byteOf (bitAt 0 d.freqLimit + bitAt 1 d.trained + bitAt 2 d.lastPhase.isSome)]
    ++ int32 d.yDisc ++ nat32 d.u ++ [byteOf d.good, byteOf d.outlierRun, byteOf d.missingRun]
    ++ int32 (optInt d.lastPhase) ++ nat16 d.spurious ++ nat16 d.outliers

def rawKind : Option ConvResult → Nat
  | none => 0
  | some (.value _) => 1
  | some .noConversion => 2

/-- The two raw-sample bytes: an absent sample is sent as 0 (R187). Table 11-6 and R187 give NO-CONVERSION no value:
DESIGN CHOICE (assumption log 19), the free value handed in. -/
def rawValue (ofNoConversion : Half) : Option ConvResult → List Byte
  | some (.value v) => int16 v
  | some .noConversion => be16 ofNoConversion
  | none => int16 0

/-- Offsets 40..46 and 47..53: one thermometer channel. -/
def Thermometer.statusBytes (ofNoConversion : Half) (t : Thermometer) : List Byte :=
  [byteOf (rawKind t.raw + bitAt 2 t.held.isSome + 8 * t.health.code)] ++ rawValue ofNoConversion t.raw
    ++ int16 (optInt t.held) ++ nat16 t.faults

/-- Offsets 55..63: one axis channel in three bytes. -/
def AxisChannel.statusBytes (a : AxisChannel) : List Byte := [a.mode.code, int8 a.index, byteOf a.settle]

def Edit.code : Edit → Nat
  | .none => 0
  | .editing _ _ _ => 1
  | .committing _ _ _ => 2

def Edit.holder : Edit → Option Link
  | .none => Option.none
  | .editing h _ _ => Option.some h
  | .committing h _ _ => Option.some h

/-- The edit holder's code; absent is 0xFF (Table 11-2). -/
def holderCode : Option Link → Byte
  | none => 0xFF
  | some l => linkCode l

/-- Offsets 64..67: the Calibration Unit. -/
def CalUnit.statusBytes (c : CalUnit) : List Byte :=
  be16 c.version ++ [byteOf (bitAt 0 c.lock + bitAt 1 c.configDefault + bitAt 2 c.storeStale + 8 * c.edit.code),
    holderCode c.edit.holder]

/-- The oldest position: the sequence number of the oldest record held, or next sequence when the ring is empty. -/
def Ring.oldest (r : Ring) : Word :=
  match r.records with
  | [] => r.next
  | q :: _ => q.seq

/-- The newest record's sequence number, absent when the ring is empty. -/
def Ring.newest (r : Ring) : Option Word := r.records.getLast?.map (·.seq)

/-- The record count. -/
def Ring.count (r : Ring) : Nat := r.records.length

/-- Offsets 68..81: the Record Ring. -/
def Ring.statusBytes (r : Ring) : List Byte :=
  nat16 r.count ++ be32 r.oldest ++ be32 (r.newest.getD 0) ++ be32 r.next

/-- Offsets 82..102: the link on which READ STATUS executes. -/
def LinkState.statusBytes (l : LinkState) : List Byte :=
  be32 l.cursor ++ [byteOf (bitAt 0 l.stream)] ++ nat16 l.badFrames ++ nat16 l.framingErrors ++ nat16 l.timeouts
    ++ nat16 l.breaks ++ nat16 l.displacedTotal ++ be16 l.mask ++ be16 l.notices.bits
    ++ [byteOf (bitAt 0 l.latch.isSome + bitAt 1 l.markLine), byteOf l.ignored]

/-- The READ STATUS payload of link l: 103 bytes (R189). -/
def State.statusBytes (s : State) (l : Link) : List Byte :=
  let raw (ch : Channel) : Half := Config.rawOfNoConversion ch s.epoch.sn s.epoch.position
  s.epoch.statusBytes ++ s.disc.statusBytes ++ s.thermTS.statusBytes (raw .TS) ++ s.thermTO.statusBytes (raw .TO)
    ++ [byteOf (bitAt 0 s.cal.oscVoid + bitAt 1 s.cal.oscClamp)]
    ++ s.axes.x.statusBytes ++ s.axes.y.statusBytes ++ s.axes.z.statusBytes
    ++ s.cal.statusBytes ++ s.ring.statusBytes ++ (s.links.get l).statusBytes

end Sys2Proof.Machine
end

