-- ==== Sys2Proof/Machine/Ops.lean ====
section
/-! DEFINITION. The named operations that the blocks share: a link's state, its notices, its answers, and the passing
of time. -/

namespace Sys2Proof.Machine

/-! ## One link, all links -/

/-- Change the state of one link. -/
def State.onLink (s : State) (l : Link) (f : LinkState → LinkState) : State :=
  { s with links := s.links.modify l f }

/-! ## Notices (R173, R174) -/

/-- GAP details add up and stop at 2^32 − 1; every other detail is replaced (R173). -/
def addGap (held : Option Nat) (n : Nat) : Nat := min max32 (held.getD 0 + n)

/-- Enter a notice into a notice set (R173). -/
def NoticeSet.raise (n : NoticeSet) : Notice → NoticeSet
  | .clock c => { n with clock := some c }
  | .step k sn => { n with step := some (k, sn) }
  | .gap m => { n with gap := some (addGap n.gap m) }
  | .temp ch h => { n with temp := some (ch, h) }
  | .calib v => { n with calib := some v }
  | .baseline l => { n with baseline := some l }
  | .editExpired => { n with editExpired := true }
  | .mark src => { n with mark := some src }
  | .labelConflict => { n with labelConflict := true }

def LinkState.raise (n : Notice) (l : LinkState) : LinkState := { l with notices := l.notices.raise n }

/-- Raise a notice on one link. -/
def State.raiseOn (s : State) (l : Link) (n : Notice) : State := s.onLink l (LinkState.raise n)

/-- Raise a notice on all three links. -/
def State.raiseAll (s : State) (n : Notice) : State := { s with links := s.links.map (LinkState.raise n) }

/-- The highest-priority pending notice (R176, Table 10-1). -/
def NoticeSet.highest (n : NoticeSet) : Option Notice :=
  n.clock.map .clock
    <|> n.step.map (fun d => .step d.1 d.2)
    <|> n.gap.map .gap
    <|> n.temp.map (fun d => .temp d.1 d.2)
    <|> n.calib.map .calib
    <|> n.baseline.map .baseline
    <|> (if n.editExpired then some .editExpired else none)
    <|> n.mark.map .mark
    <|> (if n.labelConflict then some .labelConflict else none)

/-- READ NOTICE removes the reported entry unless it is MARK (R176). -/
def NoticeSet.afterRead (n : NoticeSet) : Notice → NoticeSet
  | .clock _ => { n with clock := none }
  | .step _ _ => { n with step := none }
  | .gap _ => { n with gap := none }
  | .temp _ _ => { n with temp := none }
  | .calib _ => { n with calib := none }
  | .baseline _ => { n with baseline := none }
  | .editExpired => { n with editExpired := false }
  | .mark _ => n
  | .labelConflict => { n with labelConflict := false }

/-! ## Answers -/

/-- Fix the reply of a link's executing command (R153). -/
def LinkState.answer (st : Status) (payload : List Byte) (l : LinkState) : LinkState :=
  { l with executing := l.executing.map (fun e => { e with reply := some ⟨st, payload⟩ }) }

def State.answer (s : State) (l : Link) (st : Status) (payload : List Byte) : State :=
  s.onLink l (LinkState.answer st payload)

/-! ## The next frame of a link's transmitter (R157, R158) -/

/-- What the transmitter would begin. -/
inductive Choice where
  | reply | transfer | stream
deriving DecidableEq, Repr

/-- The link's cursor is behind next sequence (R127, R130). -/
def LinkState.behind (next : Word) (l : LinkState) : Bool := !decide (l.cursor = next)

/-- A transfer has a record frame ready (R163). -/
def LinkState.transferReady (next : Word) (l : LinkState) (t : Transfer) : Bool :=
  decide (t.phase = .running) && decide (t.delivered < t.requested) && l.behind next

/-- The stream takes the line when the executing command has no frame ready (R157, R171). -/
def LinkState.streamChoice (next : Word) (l : LinkState) : Option Choice :=
  if l.stream && l.behind next then some .stream else none

/-- The choice of R157: the executing command's frame first, then the stream; nothing while READY is negated or a
frame is being sent. -/
def LinkState.choice (next : Word) (l : LinkState) : Option Choice :=
  if l.ready && l.tx.isNone then
    match l.executing with
    | none => l.streamChoice next
    | some e =>
      match e.reply, e.transfer with
      | some _, _ => some .reply
      | none, some t => if l.transferReady next t then some .transfer else l.streamChoice next
      | none, none => l.streamChoice next
  else none

/-- A requested warm reset takes effect now: no store write is in flight (R18, R123). -/
def State.resetDue (s : State) : Bool := s.resetWaiting && s.store.inFlight.isNone

/-! ## The instants of an interval (R1, R5, R6) -/

/-- A tick position of the present interval that is still to come, its own instant not issued yet. -/
def EpochTimer.ahead (e : EpochTimer) (pos : Nat) : Bool :=
  decide (e.tickPos < pos) || (decide (e.tickPos = pos) && !e.issued)

/-- The next strobe of the interval, if one is left (R5). -/
def EpochTimer.nextStrobe (e : EpochTimer) : Option Nat :=
  (List.range strobesPerInterval).find? (fun k => e.ahead (strobePos k))

/-- The tick position of the midpoint mark (R6). -/
def EpochTimer.midpoint (e : EpochTimer) : Nat := e.len / 2

/-! ## Time (assumption log 1) -/

def EpochTimer.elapse (n : Nat) (e : EpochTimer) : EpochTimer :=
  { e with tickPos := e.tickPos + n, issued := false, epochOutLeft := e.epochOutLeft - n }

def Thermometer.elapse (n : Nat) (t : Thermometer) : Thermometer :=
  { t with conversion := t.conversion.map (· - n) }

/-- The idle timer runs only in EDITING (R108). -/
def Edit.elapse (n : Nat) : Edit → Edit
  | .none => .none
  | .editing h sh idle => .editing h sh (idle - n)
  | .committing h sh br => .committing h sh br

def StoreWrite.elapse (n : Nat) (w : StoreWrite) : StoreWrite := { w with elapsed := w.elapsed + n }

/-- The receiver is inside a frame and times the gap (R149). -/
def Receiver.inFrame (r : Receiver) : Bool :=
  match r.state with
  | .header => true
  | .payload => true
  | .check => true
  | .hunt => false
  | .sync2 => false
  | .brk => false

/-- The gap runs until the stop bit of the next byte, marking or spacing (R145, R149). -/
def Receiver.timing (r : Receiver) : Bool := r.inFrame && !r.undecided

def Receiver.elapse (n : Nat) (r : Receiver) : Receiver :=
  { r with gap := if r.timing then r.gap + n else r.gap }

def LinkState.elapse (n : Nat) (l : LinkState) : LinkState := { l with rx := l.rx.elapse n }

def Samples.elapse (n : Nat) (p : Samples) : Samples := ⟨min 2 (p.pps + n), min 2 (p.mark + n), min 2 (p.reset + n)⟩

/-- n ticks of the reference oscillator pass, and nothing else happens. -/
def State.advance (n : Nat) (s : State) : State :=
  if n = 0 then s else
  { s with
    epoch := s.epoch.elapse n
    thermTS := s.thermTS.elapse n
    thermTO := s.thermTO.elapse n
    cal := { s.cal with edit := s.cal.edit.elapse n }
    store := { s.store with inFlight := s.store.inFlight.map (StoreWrite.elapse n) }
    links := s.links.map (LinkState.elapse n)
    samples := s.samples.elapse n
    replaced := none
    earlier := PerAxis.fill [] }

/-- Ticks to the end of the edit's idle time (R108). -/
def Edit.due : Edit → List Nat
  | .none => []
  | .editing _ _ idle => [idle]
  | .committing _ _ _ => []

/-- Ticks to the inter-byte timeout of a link (R149). -/
def LinkState.gapDue (l : LinkState) : List Nat := if l.rx.timing then [gapTicks - l.rx.gap] else []

/-- A frame that a transmitter can begin, begins at once (R157). -/
def LinkState.txDue (next : Word) (l : LinkState) : List Nat := if (l.choice next).isSome then [0] else []

/-- In how many ticks each thing is due that the machine's state makes happen: the boundary, the next strobe, the
midpoint mark, the ends of conversions, the end of the edit's idle time, the latest end of a store write, the
inter-byte timeouts; and 0 for a frame that can begin and for a reset that can take effect. -/
def State.dues (s : State) : List Nat :=
  [s.epoch.len - s.epoch.tickPos]
    ++ (s.epoch.nextStrobe.map (fun k => strobePos k - s.epoch.tickPos)).toList
    ++ (if s.epoch.ahead s.epoch.midpoint then [s.epoch.midpoint - s.epoch.tickPos] else [])
    ++ s.thermTS.conversion.toList ++ s.thermTO.conversion.toList
    ++ s.cal.edit.due
    ++ (s.store.inFlight.map (fun w => writeMaxTicks - w.elapsed)).toList
    ++ s.links.a.gapDue ++ s.links.b.gapDue ++ s.links.c.gapDue
    ++ s.links.a.txDue s.ring.next ++ s.links.b.txDue s.ring.next ++ s.links.c.txDue s.ring.next
    ++ (if s.resetDue then [0] else [])

/-- n ticks can pass: nothing falls due before they have passed. -/
def State.mayPass (s : State) (n : Nat) : Bool := s.dues.all (fun d => decide (n ≤ d))

/-- The frame of every command (assumption log 2): `wait` ticks pass and then its event takes place, if the part is
powered, nothing else falls due earlier and the event can occur in the state reached; otherwise the event does not
take place and nothing changes. -/
def State.atInstant (s : State) (wait : Nat) (occurs : State → Bool) (effect : State → State) :
    Host.Outcome State Fault Refusal :=
  if s.powered && s.mayPass wait && occurs (s.advance wait) then .next (effect (s.advance wait)) else .next s

/-- With no command waiting the oscillator goes on: one tick passes, unless something is due at this very tick, whose
command the queue must bring (assumption log 5). -/
def State.idleTick (s : State) : State :=
  if s.powered && s.mayPass 1 then s.advance 1 else s

end Sys2Proof.Machine
end

