-- ==== Sys2Proof/Machine/CalStore.lean ====
section
/-! DEFINITION. The Calibration Store's writes (R119, R120) and the version a commit gives (R106). -/

namespace Sys2Proof.Machine

/-- The version after a commit: 65,535 is followed by 1 (R106). -/
def nextVersion (v : Half) : Half := if v = 0xFFFF then 1 else v + 1

/-- The shadow, where one exists. -/
def Edit.shadow : Edit → Option CalSet
  | .none => Option.none
  | .editing _ sh _ => Option.some sh
  | .committing _ sh _ => Option.some sh

/-- The image of a commit write (R112). -/
def State.commitContents (s : State) : StoreContents where
  cal := s.cal.edit.shadow.getD s.cal.active
  version := nextVersion s.cal.version
  configDefault := false
  baseline := s.cal.baseline

/-- The image of a baseline write (R119). -/
def State.baselineContents (s : State) : StoreContents where
  cal := s.cal.active
  version := s.cal.version
  configDefault := s.cal.configDefault
  baseline := s.cal.baseline

def State.startWrite (s : State) : WriteKind → State
  | .commit => { s with store := { s.store with inFlight := some ⟨.commit, s.commitContents, 0⟩ } }
  | .baseline => { s with store := { s.store with inFlight := some ⟨.baseline, s.baselineContents, 0⟩ } }

/-- A requested write starts at once: nothing is in flight and no reset is waiting (R119, R123). -/
def State.canStartWrite (s : State) : Bool := s.store.inFlight.isNone && !s.resetWaiting

/-- A write is requested (R119). -/
def State.requestWrite (s : State) : WriteKind → State
  | .commit =>
    if s.canStartWrite then s.startWrite .commit
    else { s with store := { s.store with commitWaiting := true } }
  | .baseline =>
    if s.canStartWrite then s.startWrite .baseline
    else { s with store := { s.store with baselinePending := true } }

/-- The next write is chosen (R120): the commit waiting first, then the baseline pending. While a reset waits nothing
is chosen (R123). -/
def State.chooseWrite (s : State) : State :=
  if s.resetWaiting then s
  else if s.store.commitWaiting then
    State.startWrite { s with store := { s.store with commitWaiting := false } } .commit
  else if s.store.baselinePending then
    State.startWrite { s with store := { s.store with baselinePending := false } } .baseline
  else s

/-- The KIND of COMMIT. -/
def isCommit (e : Executing) : Bool := decide (e.command.kind = Kind.commit.code) && e.reply.isNone

/-- Answer the COMMIT still in execution on the holder's link, if it is (R113, R114). -/
def LinkState.answerCommit (st : Status) (version : Half) (l : LinkState) : LinkState :=
  { l with executing := l.executing.map (fun e => if isCommit e then { e with reply := some ⟨st, be16 version⟩ } else e) }

/-- A commit write has ended with success (R113, R116). -/
def State.commitSuccess (s : State) (version : Half) : State :=
  match s.cal.edit with
  | .none => s
  | .editing _ _ _ => s
  | .committing holder shadow broken =>
    let s := { s with cal := { s.cal with active := shadow, version := version, configDefault := false, edit := .none } }
    let s := s.raiseAll (.calib version)
    if broken then s else s.onLink holder (LinkState.answerCommit .ok version)

/-- A commit write has ended with fault: back to EDITING, or to NONE where the holder's link has had a break (R114,
R116). -/
def State.commitFault (s : State) : State :=
  match s.cal.edit with
  | .none => s
  | .editing _ _ _ => s
  | .committing holder shadow broken =>
    if broken then { s with cal := { s.cal with edit := .none } }
    else
      State.onLink { s with cal := { s.cal with edit := .editing holder shadow idleTicks } } holder
        (LinkState.answerCommit .storeFault s.cal.version)

/-- The write in flight ends (R120): its outcome reaches the image, STORE-STALE and the edit, and the next write is
chosen. -/
def State.endWrite (s : State) (w : StoreWrite) (success : Bool) : State :=
  let s := { s with store := { s.store with inFlight := none }, cal := { s.cal with storeStale := !success } }
  let s := if success then { s with store := { s.store with image := ⟨w.contents, true, true⟩ } } else s
  let s :=
    match w.kind with
    | .baseline => s
    | .commit => if success then s.commitSuccess w.contents.version else s.commitFault
  s.chooseWrite

end Sys2Proof.Machine
end

