-- ==== Sys2Proof/Machine/EditCommands.lean ====
section
/-! DEFINITION. The commands of the Calibration Unit: the edit (R107 to R115), the lock (R117), READ TABLE (R80, R81)
and SET BASELINE (R118). -/

namespace Sys2Proof.Machine

def State.setEdit (s : State) (e : Edit) : State := { s with cal := { s.cal with edit := e } }

/-! ## OPEN EDIT, COMMIT, ABANDON, LOCK CALIBRATION -/

/-- The reply of OPEN EDIT: the active version and the holder (R107, Table 11-3). -/
def State.openPayload (s : State) : List Byte := be16 s.cal.version ++ [holderCode s.cal.edit.holder]

/-- Answer OPEN EDIT with the edit as it stands after the command. -/
def State.answerOpen (s : State) (l : Link) (st : Status) : State := s.answer l st s.openPayload

/-- OPEN EDIT (R107). -/
def State.takeOpenEdit (s : State) (l : Link) : State :=
  match s.cal.edit with
  | .none =>
    if s.cal.lock then s.answer l .locked []
    else (s.setEdit (.editing l s.cal.active idleTicks)).answerOpen l .ok
  | .editing h sh _ =>
    if h = l then (s.setEdit (.editing h sh idleTicks)).answerOpen l .ok
    else s.answerOpen l .busy
  | .committing _ _ _ => s.answerOpen l .busy

/-- COMMIT (R112): its reply is built when the write ends. DESIGN CHOICE (assumption log 18): in COMMITTING from another
link R112 says BUSY, as from any link, and the cell of Table 6-2 says NO-EDIT; the model follows the rule. -/
def State.takeCommit (s : State) (l : Link) : State :=
  match s.cal.edit with
  | .none => s.answer l .noEdit []
  | .editing h sh _ =>
    if h = l then (s.setEdit (.committing h sh false)).requestWrite .commit
    else s.answer l .noEdit []
  | .committing _ _ _ => s.answer l .busy []

/-- ABANDON (R115). -/
def State.takeAbandon (s : State) (l : Link) : State :=
  match s.cal.edit with
  | .none => s.answer l .noEdit []
  | .editing h _ _ =>
    if h = l then (s.setEdit .none).answer l .ok (be16 s.cal.version)
    else s.answer l .noEdit []
  | .committing _ _ _ => s.answer l .busy []

/-- LOCK CALIBRATION (R117). -/
def State.takeLock (s : State) (l : Link) : State :=
  match s.cal.edit with
  | .none => State.answer { s with cal := { s.cal with lock := true } } l .ok []
  | .editing _ _ _ => s.answer l .busy []
  | .committing _ _ _ => s.answer l .busy []

/-! ## Writes into the shadow -/

/-- An edit write taken on link l: the refusals for edit state come first (R109). The holder in EDITING loads the idle
timer whatever the outcome (R108); `write` gives the new shadow, or none where a check fails and RANGE is answered. -/
def State.editWrite (s : State) (l : Link) (write : CalSet → Option CalSet) : State :=
  match s.cal.edit with
  | .none => s.answer l .noEdit []
  | .editing h sh _ =>
    if h = l then
      match write sh with
      | some sh' => (s.setEdit (.editing h sh' idleTicks)).answer l .ok []
      | none => (s.setEdit (.editing h sh idleTicks)).answer l .range []
    else s.answer l .noEdit []
  | .committing h _ _ => if h = l then s.answer l .busy [] else s.answer l .noEdit []

def Table.setRow (t : Table) (row : RowName) (r : Row) : Table :=
  match row with
  | .X => { t with x := r }
  | .Y => { t with y := r }
  | .Z => { t with z := r }
  | .OSC => { t with osc := r }

def Row.setKnot (r : Row) (k : Nat) (v : Knot) : Row := { r with knots := r.knots.setIfInBounds k v }

def Row.setBand (r : Row) (b : Nat) (m : BandMode) : Row := { r with bands := r.bands.setIfInBounds b m }

/-- The terms a knot of a row may hold (R109). -/
def knotAllowed (row : RowName) (g o : Int) : Bool :=
  within termLimit g && within termLimit o && (!decide (row = .OSC) || decide (g = 0))

/-- WRITE KNOT's checks and write (R109). -/
def CalSet.writeKnot (c : CalSet) (p : List Byte) : Option CalSet :=
  let k := (u8At p 1).toNat
  let g := s32At p 2
  let o := s32At p 6
  match rowOfCode (u8At p 0) with
  | none => none
  | some row =>
    if k ≤ 16 && knotAllowed row g o then
      some { c with table := c.table.setRow row ((c.table.row row).setKnot k ⟨g, o⟩) }
    else none

/-- WRITE BAND's checks and write (R110). -/
def CalSet.writeBand (c : CalSet) (p : List Byte) : Option CalSet :=
  let b := (u8At p 1).toNat
  match rowOfCode (u8At p 0), bandOfCode (u8At p 2) with
  | some row, some m =>
    if b ≤ 15 then some { c with table := c.table.setRow row ((c.table.row row).setBand b m) } else none
  | some _, none => none
  | none, _ => none

/-- WRITE BIAS's checks and write (R111). -/
def CalSet.writeBias (c : CalSet) (p : List Byte) : Option CalSet :=
  let v := s32At p 1
  match axisOfCode (u8At p 0) with
  | none => none
  | some a => if within biasLimit v then some { c with bias := c.bias.modify a (fun _ => v) } else none

/-- WRITE HOLDOVER RATE's check and write (R111). -/
def CalSet.writeHoldover (c : CalSet) (p : List Byte) : Option CalSet :=
  let h := (u16At p 0).toNat
  if h ≤ holdoverLimit then some { c with h := h } else none

def State.takeWriteKnot (s : State) (l : Link) (p : List Byte) : State := s.editWrite l (fun c => c.writeKnot p)
def State.takeWriteBand (s : State) (l : Link) (p : List Byte) : State := s.editWrite l (fun c => c.writeBand p)
def State.takeWriteBias (s : State) (l : Link) (p : List Byte) : State := s.editWrite l (fun c => c.writeBias p)
def State.takeWriteHoldover (s : State) (l : Link) (p : List Byte) : State := s.editWrite l (fun c => c.writeHoldover p)

/-! ## READ TABLE -/

/-- Part codes (R80). -/
def partOfCode (b : Byte) : Option Nat :=
  match b.toNat with
  | 0 => some 0
  | 1 => some 1
  | 2 => some 2
  | _ => none

/-- Answer READ TABLE from a copy, after the checks of row and part (R80). -/
def State.answerTable (s : State) (l : Link) (p : List Byte) (c : CalSet) : State :=
  match rowOfCode (u8At p 0), partOfCode (u8At p 2) with
  | some row, some part => s.answer l .ok (p.take 3 ++ be16 s.cal.version ++ c.partBytes row part)
  | some _, none => s.answer l .range []
  | none, _ => s.answer l .range []

/-- READ TABLE with copy SHADOW: answered to the holder in EDITING alone, whose idle timer it loads (R81, R108). -/
def State.readShadow (s : State) (l : Link) (p : List Byte) : State :=
  match s.cal.edit with
  | .none => s.answer l .noEdit []
  | .editing h sh _ =>
    if h = l then (s.setEdit (.editing h sh idleTicks)).answerTable l p sh else s.answer l .noEdit []
  | .committing _ _ _ => s.answer l .noEdit []

/-- READ TABLE (R80, R81). -/
def State.takeReadTable (s : State) (l : Link) (p : List Byte) : State :=
  match (u8At p 1).toNat with
  | 0 => s.answerTable l p s.cal.active
  | 1 => s.readShadow l p
  | _ => s.answer l .range []

/-! ## SET BASELINE -/

/-- BASELINE is raised on the two links other than the sender (R118). -/
def State.raiseOthers (s : State) (l : Link) (n : Notice) : State :=
  match l with
  | .A => (s.raiseOn .B n).raiseOn .C n
  | .B => (s.raiseOn .A n).raiseOn .C n
  | .C => (s.raiseOn .A n).raiseOn .B n

/-- SET BASELINE (R118). -/
def State.takeSetBaseline (s : State) (l : Link) (p : List Byte) : State :=
  let b : PerAxis Int := ⟨s32At p 0, s32At p 4, s32At p 8⟩
  if PerAxis.allWithin baselineLimit b then
    let s := { s with cal := { s.cal with baseline := b }, asm := { s.asm with baselineChange := true } }
    ((s.raiseOthers l (.baseline l)).requestWrite .baseline).answer l .ok (int32 b.x ++ int32 b.y ++ int32 b.z)
  else s.answer l .range []

end Sys2Proof.Machine
end

