-- ==== Sys2Proof/Machine/Lookup.lean ====
section
/-! DEFINITION. The Correction Table lookup and the arithmetic of a corrected field value (R73 to R78, R87 to R90,
R104). -/

namespace Sys2Proof.Machine

/-- What a lookup yields (R77). -/
structure LookupResult where
  g : Int
  o : Int
  tempClamp : Bool
  uncorrected : Bool
deriving DecidableEq, Repr

/-- A lookup treated as VOID: both terms 0, flagged uncorrected (R76). -/
def LookupResult.voided (clamped : Bool) : LookupResult := ⟨0, 0, clamped, true⟩

/-- The temperature placed in the table's span (R73). -/
def clampTemp (t : Int) : Int := clampTo (-tableSpan) tableSpan t

/-- The band of a clamped temperature: 16, reached only at +4000, becomes 15 (R73). -/
def bandOf (t : Int) : Nat := min 15 ((t + tableSpan) / knotStep).toNat

/-- The position in band b (R73). -/
def positionIn (t : Int) (b : Nat) : Int := t + tableSpan - knotStep * b

/-- A term between two knots (R74). -/
def interpolate (low high f : Int) : Int := low + roundDiv ((high - low) * f) knotStep

/-- The lookup at a temperature that exists (R73 to R76). -/
def Row.lookupAt (r : Row) (t : Int) : LookupResult :=
  let c := clampTemp t
  let clamped := !decide (c = t)
  let b := bandOf c
  let low := r.knot b
  match r.band b with
  | .interp =>
    let high := r.knot (b + 1)
    let f := positionIn c b
    ⟨interpolate low.g high.g f, interpolate low.o high.o f, clamped, false⟩
  | .hold => ⟨low.g, low.o, clamped, false⟩
  | .void => LookupResult.voided clamped

/-- The value a channel offers to its users: none while its health is NONE (Table 4-2). -/
def Thermometer.offered (t : Thermometer) : Option Int :=
  match t.health with
  | .none => Option.none
  | .good => t.held
  | .held => t.held
  | .stale => t.held

/-- A lookup in row r at what a thermometer channel offers: with no temperature it is treated as VOID, and no
temperature is clamped (R73). -/
def Row.lookup (r : Row) (t : Thermometer) : LookupResult :=
  match t.offered with
  | none => LookupResult.voided false
  | some v => r.lookupAt v

/-- The row of an axis. -/
def Table.axisRow (t : Table) : Axis → Row
  | .X => t.x
  | .Y => t.y
  | .Z => t.z

/-- u = B + n·2,000,000 + r (R87). -/
def fieldValue (bias : Int) (r : Reading) : Int := bias + r.index * offsetUnit + r.residual

/-- m + round(m·G / 10^8) + O, and then the baseline (R89, R90). -/
def correctedValue (m : Int) (look : LookupResult) (baseline : Int) : Int :=
  m + roundDiv (m * look.g) gainUnit + look.o + baseline

/-- The mean of the valid readings' field values; none without a valid reading (R88). -/
def axisMean (bias : Int) (l : List Reading) : Option Int :=
  match validCount l with
  | 0 => none
  | v + 1 => some (roundDiv (((l.filter Reading.isValid).map (fieldValue bias)).sum) ((v : Int) + 1))

end Sys2Proof.Machine
end

