-- ==== Sys2Proof/Machine/Capture.lean ====
section
/-! DEFINITION. A mark capture (R177), made with the single-reading correction (R104, R105), and its offer to a latch
(R180). -/

namespace Sys2Proof.Machine

/-- What a capture of this instant is formed from besides the readings (R105, R177). -/
def State.markContext (s : State) : MarkContext where
  sn := s.epoch.sn
  tick := s.epoch.position
  label := s.epoch.label
  clock := s.disc.clock
  u := s.disc.u
  tsValue := s.thermTS.offered
  tsHealth := s.thermTS.health
  active := s.cal.active
  baseline := s.cal.baseline

/-- The readings that this strobe replaces stay in reach of a mark of the same instant (R46). -/
def State.keepReplaced (s : State) : State := { s with replaced := some ⟨s.axes.map (·.latest), s.markContext⟩ }

/-- What the strobe of this instant left has been seen: a mark from here on comes after it (R46, R183; `replaced` is the
model's own, assumption log 12). -/
def State.seeStrobe (s : State) : State := { s with replaced := none }

/-- The reading a capture takes from an axis: the latest reading (R46). At the very instant of a strobe that has been
taken the three channels may differ: each axis gives its new reading or the one before, as the free value of Config has
it. A capture that holds a change taken after the strobe comes after the strobe too (R177): it takes the new readings. -/
def State.captureReading (s : State) (a : Axis) : Option Reading :=
  match s.replaced with
  | none => (s.axes.get a).latest
  | some old =>
    if s.markContext = old.context ∧ Config.newReadingFound s.choices a = false then old.readings.get a
    else (s.axes.get a).latest

/-- A mark has been taken: it is a free choice, and a later mark of the instant finds on each axis no older reading than
this one found (R46). -/
def State.markTaken (s : State) : State :=
  { s with
    choices := s.choices + 1
    replaced := s.replaced.map (fun old =>
      { old with readings := ⟨s.captureReading .X, s.captureReading .Y, s.captureReading .Z⟩ }) }

/-- One axis of a capture; an axis with no latest reading has no value and no flags (R104). -/
def State.captureAxis (s : State) (a : Axis) : CaptureAxis :=
  match s.captureReading a with
  | none => ⟨none, false, false, false, false⟩
  | some r =>
    let look := (s.cal.active.table.axisRow a).lookup s.thermTS
    let u := fieldValue (s.cal.active.bias.get a) r
    ⟨some (correctedValue u look (s.cal.baseline.get a)), r.sat, r.settle, look.tempClamp, look.uncorrected⟩

/-- The capture formed at this instant (R177). -/
def State.capture (s : State) (source : MarkSource) : Capture where
  source := source
  sn := s.epoch.sn
  tick := s.epoch.position
  label := s.epoch.label
  clock := s.disc.clock
  u := s.disc.u
  tsValue := s.thermTS.offered
  tsHealth := s.thermTS.health
  axes := ⟨s.captureAxis .X, s.captureAxis .Y, s.captureAxis .Z⟩

/-- A capture offered to a link's latch: placed if the latch is empty, counted as ignored otherwise (R180). -/
def LinkState.offer (c : Capture) (l : LinkState) : LinkState :=
  match l.latch with
  | none => LinkState.raise (.mark c.source) { l with latch := some c }
  | some _ => { l with ignored := bump max8 l.ignored }

/-- The MARK line's offer reaches a link whose line-mark enable is on (R178). -/
def LinkState.offerLine (c : Capture) (l : LinkState) : LinkState := if l.markLine then l.offer c else l

end Sys2Proof.Machine
end

