-- ==== Sys2Proof/Machine/NoticeCommands.lean ====
section
/-! DEFINITION. The station commands on notices, marks and status: READ STATUS (R183), READ NOTICE (R176), SET NOTICE
MASK (R175), MARK (R179), READ MARK (R182) and SET MARK LINE (R181). -/

namespace Sys2Proof.Machine

/-- The SET OFFSETs of this very instant have been seen where they stand: from here on they come before the reading of a
strobe 4 of the instant (R183; `earlier` is the model's own, assumption log 20). -/
def State.seeSettings (s : State) : State := { s with earlier := PerAxis.fill [] }

/-- READ STATUS (R183, R184): the reply of Table 11-6 for the link on which it executes. Every value in it is the one held
at this single point of the instant, so a SET OFFSET that it shows cannot come after the reading of a strobe 4 that it does
not show, and a mark that it does not show cannot come before a strobe that it shows. Nothing that the manual gives the part
changes. -/
def State.takeReadStatus (s : State) (l : Link) : State :=
  s.seeSettings.seeStrobe.answer l .ok (s.statusBytes l)

/-- READ NOTICE (R176): the highest-priority entry is reported and, unless it is MARK, removed. Its reply may show the GAP
notice of a strobe 4 and no MARK notice, so a mark from here on comes after the strobe (assumption log 12). -/
def State.takeReadNotice (s : State) (l : Link) : State :=
  let s := s.seeStrobe
  match (s.links.get l).notices.highest with
  | none => s.answer l .ok (0 :: ([0, 0, 0, 0, 0] ++ be16 (s.links.get l).notices.bits))
  | some n =>
    let after := (s.links.get l).notices.afterRead n
    (s.onLink l (fun k => { k with notices := after })).answer l .ok (n.code :: (n.detail ++ be16 after.bits))

/-- SET NOTICE MASK (R175): the whole mask is replaced, bits 9..15 ignored. The reply shows the kinds pending, as that of
READ NOTICE does (assumption log 12). -/
def State.takeSetNoticeMask (s : State) (l : Link) (p : List Byte) : State :=
  let m := maskBits (u16At p 0)
  (s.seeStrobe.onLink l (fun k => { k with mask := m })).answer l .ok (be16 m ++ be16 (s.links.get l).notices.bits)

/-- The reply to MARK for the capture the latch holds after the command (R179, Table 11-3). -/
def markPayload (captured : Bool) (held : Capture) (ignored : Nat) : List Byte :=
  byteOf (if captured then 1 else 2) :: (be32 held.sn ++ nat32 held.tick ++ [byteOf ignored])

/-- MARK (R179): a COMMAND capture is offered to the sending link's latch. -/
def State.takeMark (s : State) (l : Link) : State :=
  let c := s.capture .command
  let before := (s.links.get l).latch
  let s' := s.markTaken.onLink l (LinkState.offer c)
  s'.answer l .ok (markPayload before.isNone (before.getD c) (s'.links.get l).ignored)

/-- READ MARK (R182): a capture held is returned with the ignored count, and latch, count and MARK entry are emptied. -/
def State.takeReadMark (s : State) (l : Link) : State :=
  let k := s.links.get l
  match k.latch with
  | none => s.answer l .ok [0, byteOf k.ignored]
  | some c =>
    (s.onLink l (fun k => { k with latch := none, ignored := 0, notices := { k.notices with mark := none } })).answer l .ok
      (1 :: byteOf k.ignored :: c.bytes)

/-- Answer SET MARK LINE with the values as they stand (R181, Table 11-3). -/
def State.answerMarkLine (s : State) (l : Link) (st : Status) : State :=
  let k := s.links.get l
  s.answer l st [byteOf (bitAt 0 k.markLine), byteOf (bitAt 0 k.latch.isSome), byteOf k.ignored]

/-- SET MARK LINE (R181). -/
def State.takeSetMarkLine (s : State) (l : Link) (p : List Byte) : State :=
  match (u8At p 0).toNat with
  | 0 => (s.onLink l (fun k => { k with markLine := false })).answerMarkLine l .ok
  | 1 => (s.onLink l (fun k => { k with markLine := true })).answerMarkLine l .ok
  | _ => s.answerMarkLine l .range

end Sys2Proof.Machine
end

