-- ==== Sys2Proof/Machine/RingOps.lean ====
section
/-! DEFINITION. The Record Ring: append, removal, the distance of R127, cursor advance and SEEK's classes. -/

namespace Sys2Proof.Machine

/-- A link whose cursor names the removed record is moved to the record after it, and loses one record (R131). -/
def LinkState.passRemoved (removed : Word) (l : LinkState) : LinkState :=
  if l.cursor = removed then LinkState.raise (.gap 1) { l with cursor := removed + 1 } else l

/-- The removal of the oldest record of a full ring (R129, R131). -/
def State.removeOldest (s : State) : State :=
  match s.ring.records with
  | [] => s
  | q :: rest =>
    { s with ring := { s.ring with records := rest }, links := s.links.map (LinkState.passRemoved q.seq) }

/-- Place a record after the newest under next sequence (R126, R128). -/
def Ring.place (r : Ring) (record : Record) : Ring :=
  { records := r.records ++ [⟨r.next, record⟩], next := r.next + 1 }

/-- Append a completed record (R128, R129). -/
def State.appendRecord (s : State) (record : Record) : State :=
  let s := if s.ring.count < ringCapacity then s else s.removeOldest
  { s with ring := s.ring.place record }

/-- The record under a sequence number, if the ring holds it. -/
def Ring.find (r : Ring) (seq : Word) : Option SeqRecord := r.records.find? (fun q => decide (q.seq = seq))

/-- A delivery advances the cursor by one if it still names the record carried (R132). -/
def LinkState.deliver (carried : Word) (l : LinkState) : LinkState :=
  if l.cursor = carried then { l with cursor := carried + 1 } else l

/-- The four classes of R127. -/
inductive SeqClass where
  | inRing | next | beyond | older
deriving DecidableEq, Repr

/-- d = (s − oldest position) mod 2^32. -/
def Ring.distance (r : Ring) (s : Word) : Nat := (s - r.oldest).toNat

/-- The class of a sequence number (R127). -/
def Ring.classOf (r : Ring) (s : Word) : SeqClass :=
  let d := r.distance s
  if d < r.count then .inRing
  else if d = r.count then .next
  else if d < 2 ^ 31 then .beyond
  else .older

end Sys2Proof.Machine
end

