-- ==== Sys2Proof/Machine/RecordCommands.lean ====
section
/-! DEFINITION. The station commands that read the ring: READ RECORDS (R162 to R165), STREAM (R169) and SEEK (R133 to
R135). Each is taken on link l at the instant its command enters the executing slot (R153). -/

namespace Sys2Proof.Machine

/-! ## READ RECORDS -/

/-- Payload of the replies to READ RECORDS (Table 11-3). -/
def transferPayload (delivered : Nat) (cursor next : Word) : List Byte :=
  byteOf delivered :: (be32 cursor ++ be32 next)

/-- The end test (R162, R164): a transfer whose count is reached, or whose link is caught up, ends and its final reply
is built (R165). -/
def LinkState.endTest (next : Word) (l : LinkState) : LinkState :=
  match l.executing with
  | none => l
  | some e =>
    match e.transfer with
    | none => l
    | some t =>
      if t.requested ≤ t.delivered ∨ l.cursor = next then
        { l with executing := some { e with
            transfer := some { t with phase := .ended }
            reply := some ⟨.ok, transferPayload t.delivered l.cursor next⟩ } }
      else l

/-- An accepted READ RECORDS starts a transfer of `requested` records (R162). -/
def LinkState.startTransfer (requested : Nat) (l : LinkState) : LinkState :=
  { l with executing := l.executing.map (fun e => { e with transfer := some ⟨requested, 0, .running⟩ }) }

/-- READ RECORDS (R162): count 0 is refused RANGE, counts above 16 are clamped. -/
def State.takeReadRecords (s : State) (l : Link) (p : List Byte) : State :=
  let c := (u8At p 0).toNat
  if c = 0 then s.answer l .range (transferPayload 0 (s.links.get l).cursor s.ring.next)
  else s.onLink l (fun k => (k.startTransfer (min maxTransfer c)).endTest s.ring.next)

/-! ## STREAM -/

/-- Payload of the replies to STREAM (Table 11-3). -/
def streamPayload (on : Bool) (cursor next : Word) : List Byte :=
  byteOf (bitAt 0 on) :: (be32 cursor ++ be32 next)

/-- Answer STREAM with the values as they stand. -/
def State.answerStream (s : State) (l : Link) (st : Status) : State :=
  s.answer l st (streamPayload (s.links.get l).stream (s.links.get l).cursor s.ring.next)

/-- STREAM (R169): 1 sets the flag and the tag, 0 clears the flag, any other value is refused RANGE. -/
def State.takeStream (s : State) (l : Link) (tag : Byte) (p : List Byte) : State :=
  match (u8At p 0).toNat with
  | 0 => (s.onLink l (fun k => { k with stream := false })).answerStream l .ok
  | 1 => (s.onLink l (fun k => { k with stream := true, streamTag := tag })).answerStream l .ok
  | _ => s.answerStream l .range

/-! ## SEEK -/

/-- Payload of the replies to SEEK (R133, Table 11-3). -/
def seekPayload (cursor : Word) (r : Ring) : List Byte :=
  be32 cursor ++ be32 r.oldest ++ be32 r.next ++ nat16 r.count

/-- Answer SEEK with the cursor as it stands after the command. -/
def State.answerSeek (s : State) (l : Link) (st : Status) : State :=
  s.answer l st (seekPayload (s.links.get l).cursor s.ring)

def State.setCursor (s : State) (l : Link) (c : Word) : State := s.onLink l (fun k => { k with cursor := c })

/-- SEEK with mode NUMBER (Table 7-2). -/
def State.seekNumber (s : State) (l : Link) (n : Word) : State :=
  match s.ring.classOf n with
  | .inRing => (s.setCursor l n).answerSeek l .ok
  | .next => (s.setCursor l n).answerSeek l .ok
  | .older => (s.setCursor l s.ring.oldest).answerSeek l .adjusted
  | .beyond => s.answerSeek l .range

/-- SEEK with mode NEWEST (R135). -/
def State.seekNewest (s : State) (l : Link) : State :=
  match s.ring.newest with
  | some n => (s.setCursor l n).answerSeek l .ok
  | none => (s.setCursor l s.ring.next).answerSeek l .adjusted

/-- SEEK (R133 to R135). -/
def State.takeSeek (s : State) (l : Link) (p : List Byte) : State :=
  match (u8At p 0).toNat with
  | 0 => (s.setCursor l s.ring.oldest).answerSeek l .ok
  | 1 => s.seekNewest l
  | 2 => (s.setCursor l s.ring.next).answerSeek l .ok
  | 3 => s.seekNumber l (u32At p 1)
  | _ => s.answerSeek l .range

end Sys2Proof.Machine
end

