-- ==== Sys2Proof/Machine/Assembly.lean ====
section
/-! DEFINITION. The Record Assembler: slots, admission of readings, completion, and what a boundary does to the slot
(chapter 5). -/

namespace Sys2Proof.Machine

/-- The slot that strobe 5 opens, centred on the next boundary (R82). -/
def Slot.opened (sn : Word) : Slot where
  arrived := false
  sn := sn + 1
  label := none
  timeStep := false
  labelStep := false
  readings := PerAxis.fill []
  disturb := false

/-- The slot rebuilt on a step boundary (R99). -/
def Slot.rebuilt (sn : Word) (label : LabelState) (labelStep : Bool) : Slot where
  arrived := true
  sn := sn
  label := some label
  timeStep := true
  labelStep := labelStep
  readings := PerAxis.fill []
  disturb := false

/-- The slot whose centre is NEXT meets its boundary (R84). -/
def Slot.arrive (sl : Slot) (sn : Word) (label : LabelState) (labelStep : Bool) : Slot :=
  if sl.arrived then sl else { sl with arrived := true, sn := sn, label := some label, labelStep := labelStep }

/-- A strobe's reading goes to the slot whose centre is NEXT (strobes 5..9) or ARRIVED (strobes 0..4) (R83). -/
def Slot.takes (sl : Slot) (k : Nat) : Bool := if k < 5 then sl.arrived else !sl.arrived

/-- A reading is appended to the list of its axis (R83). -/
def Slot.enlist (sl : Slot) (r : Reading) : Slot :=
  if sl.takes r.k then
    { sl with readings := sl.readings.modify r.axis (· ++ [r]), disturb := sl.disturb || r.disturb }
  else sl

/-- One axis of the record (R87 to R90, R94). -/
def State.axisRecord (s : State) (sl : Slot) (a : Axis) : AxisRecord :=
  let l := sl.readings.get a
  let look := (s.cal.active.table.axisRow a).lookup s.thermTS
  let v := validCount l
  { value := (axisMean (s.cal.active.bias.get a) l).map (fun m => correctedValue m look (s.cal.baseline.get a))
    count := l.length
    valid := v
    index := (s.axes.get a).index
    satSeen := anySaturated l
    stepped := isStepped l
    degraded := isDegraded v
    limit := anyLimited l
    uncorrected := look.uncorrected
    tempClamp := look.tempClamp }

/-- The record a slot completes to (R86, R91 to R96). -/
def State.recordOf (s : State) (sl : Slot) : Record where
  sn := sl.sn
  label := sl.label.getD .unlabelled
  clock := s.disc.clock
  u := s.disc.u
  version := s.cal.version
  tsValue := s.thermTS.offered
  tsHealth := s.thermTS.health
  toValue := s.thermTO.offered
  toHealth := s.thermTO.health
  timeStep := sl.timeStep
  labelStep := sl.labelStep
  disturbed := sl.disturb
  calibChanged := !decide (s.cal.version = s.asm.versionLast)
  baselineChanged := s.asm.baselineChange
  configDefault := s.cal.configDefault
  axes := ⟨s.axisRecord sl .X, s.axisRecord sl .Y, s.axisRecord sl .Z⟩

/-- Completion (R85): the record is formed and appended, and the slot closes. -/
def State.complete (s : State) (sl : Slot) : State :=
  let record := s.recordOf sl
  State.appendRecord { s with asm := { slot := none, versionLast := record.version, baselineChange := false } } record

/-- After the three strobe-4 readings the slot centred on the interval's boundary completes (R85). -/
def State.completeIfDue (s : State) (k : Nat) : State :=
  match s.asm.slot with
  | none => s
  | some sl => if k = 4 && sl.arrived then s.complete sl else s

/-- Strobe 5 opens a slot before its first reading is admitted (R82). -/
def State.openSlotIfDue (s : State) (k : Nat) : State :=
  if k = 5 then { s with asm := { s.asm with slot := some (Slot.opened s.epoch.sn) } } else s

end Sys2Proof.Machine
end

