-- ==== Sys2Proof/Machine/Channels.lean ====
section
/-! DEFINITION. The work of one strobe in an Axis Channel (R42 to R52) and the taking of a conversion's result in a
Thermometer Channel (R62 to R64). -/

namespace Sys2Proof.Machine

/-! ## Axis channels -/

/-- The clamped converter code (R42). -/
def residualOf (code : Int) : Int := clampTo (-fullScale) fullScale code

/-- The automatic step decision applies to this reading (R44, R48). -/
def AxisChannel.decides (c : AxisChannel) : Bool := decide (c.mode = .auto) && decide (c.settle = 0)

/-- The reading a strobe takes under the channel's state (R42 to R49). -/
def AxisChannel.reading (c : AxisChannel) (a : Axis) (sn : Word) (k : Nat) (code : Int) (disturb : Bool) : Reading where
  axis := a
  sn := sn
  k := k
  residual := residualOf code
  index := c.index
  sat := isSaturated (residualOf code)
  settle := decide (0 < c.settle)
  limit := c.decides && isLimited (residualOf code) c.index
  disturb := disturb

/-- The settle count and the automatic step after a reading with residual r (R47, R48). -/
def AxisChannel.settleAndStep (c : AxisChannel) (r : Int) : AxisChannel :=
  if c.decides then
    if stepThreshold < r ∧ c.index < indexLimit then { c with index := c.index + 1, settle := settleStrobes }
    else if r < -stepThreshold ∧ -indexLimit < c.index then { c with index := c.index - 1, settle := settleStrobes }
    else c
  else { c with settle := c.settle - 1 }

/-- The work of one strobe: the reading becomes the latest (R44, R45). -/
def AxisChannel.strobe (c : AxisChannel) (a : Axis) (sn : Word) (k : Nat) (code : Int) (disturb : Bool) : AxisChannel :=
  { c.settleAndStep (residualOf code) with latest := some (c.reading a sn k code disturb) }

/-! ## SET OFFSET, and strobe 4 (R53 to R56, R86) -/

/-- What a SET OFFSET sets: FIXED loads the settle count (R54), AUTO keeps index and settle count (R55). -/
def AxisChannel.set (t : OffsetChange) (c : AxisChannel) : AxisChannel :=
  match t with
  | .auto => { c with mode := .auto }
  | .fixed m => { c with mode := .fixed, index := m, settle := settleStrobes }
  | .refused => c

/-- The SET OFFSETs of a list, the latest first, one after the other. -/
def AxisChannel.setAll (late : List Setting) (c : AxisChannel) : AxisChannel := late.foldr (fun t c => c.set t.change) c

/-- The reply of SET OFFSET: mode, index and settle count after the command (R53). -/
def AxisChannel.offsetPayload (c : AxisChannel) : List Byte := [c.mode.code, int8 c.index, byteOf c.settle]

/-- The frame of the executing command's reply has begun. -/
def LinkState.replyBegun (l : LinkState) : Bool :=
  match l.tx with
  | some ⟨.reply owned, _⟩ => owned
  | some ⟨.transfer _ _, _⟩ => false
  | some ⟨.stream _, _⟩ => false
  | none => false

/-- The SET OFFSETs on axis a that come between its reading at strobe 4 and the completion, the latest first: the latest of
this instant, as many as the free value of Config has it, as far as none has begun to send its reply (R56, R86). -/
def State.lateSettings (s : State) (a : Axis) (k : Nat) : List Setting :=
  if k = 4 then
    ((s.earlier.get a).zipIdx.takeWhile (fun t =>
      decide (t.2 < Config.lateSettings s.choices a) && !(s.links.get t.1.link).replyBegun)).map (·.1)
  else []

/-- The channel that strobe k finds on axis a: the one before the first of the late SET OFFSETs. -/
def State.channelAt (s : State) (a : Axis) (k : Nat) : AxisChannel :=
  ((s.lateSettings a k).getLast?.map (·.before)).getD (s.axes.get a)

/-- The executing command is a SET OFFSET on axis a whose reply reports the axis (R53, R54): the report is p. -/
def LinkState.reviseReply (a : Axis) (p : List Byte) (l : LinkState) : LinkState :=
  { l with
    executing := l.executing.map (fun e =>
      if Kind.ofByte e.command.kind = some .setOffset ∧ axisOfCode (u8At e.command.payload 0) = some a then
        { e with reply := e.reply.map (fun r => if r.payload = [] then r else { r with payload := p }) }
      else e) }

/-- The replies of late SET OFFSETs report the axis as each of them left it after the strobe's work on c (R56). -/
def reviseReplies (a : Axis) (c : AxisChannel) : List Setting → PerLink LinkState → PerLink LinkState
  | [], links => links
  | t :: rest, links =>
    (reviseReplies a c rest links).modify t.link (LinkState.reviseReply a (c.setAll (t :: rest)).offsetPayload)

/-- One axis takes its reading at strobe k and hands it to the Record Assembler (R44, R45, R83); late SET OFFSETs follow. -/
def State.strobeAxis (s : State) (a : Axis) (k : Nat) (code : Int) (disturb : Bool) : State :=
  let late := s.lateSettings a k
  let c := s.channelAt a k
  let after := c.strobe a s.epoch.sn k code disturb
  { s with
    axes := s.axes.modify a (fun _ => after.setAll late)
    asm := { s.asm with slot := s.asm.slot.map (fun sl => sl.enlist (c.reading a s.epoch.sn k code disturb)) }
    links := reviseReplies a after late s.links }

/-! ## Thermometer channels -/

/-- A valid reading: within −6000..+6000 (R62). -/
def validReading : ConvResult → Option Int
  | .value v => if -readingLimit ≤ v ∧ v ≤ readingLimit then some v else none
  | .noConversion => none

/-- Health after a fault (R63, R64). -/
def healthAfterFault (held : Option Int) (faults : Nat) : Health :=
  match held with
  | none => .none
  | some _ => if faults ≤ heldFaults then .held else .stale

/-- A conversion's result is taken into the channel (R62 to R64). -/
def Thermometer.take (t : Thermometer) (r : ConvResult) : Thermometer :=
  match validReading r with
  | some v => { conversion := none, raw := some r, held := some v, health := .good, faults := 0 }
  | none =>
    { t with
      conversion := none
      raw := some r
      faults := bump max16 t.faults
      health := healthAfterFault t.held (bump max16 t.faults) }

def State.thermometer (s : State) : Channel → Thermometer
  | .TS => s.thermTS
  | .TO => s.thermTO

def State.setThermometer (s : State) (t : Thermometer) : Channel → State
  | .TS => { s with thermTS := t }
  | .TO => { s with thermTO := t }

/-- The result is stored and judged; a change of health raises TEMP on all links (R66). -/
def State.takeConversion (s : State) (ch : Channel) (r : ConvResult) : State :=
  let t := (s.thermometer ch).take r
  let s' := s.setThermometer t ch
  if t.health = (s.thermometer ch).health then s' else s'.raiseAll (.temp ch t.health)

end Sys2Proof.Machine
end

