-- ==== Sys2Proof/Machine/ScaleCommands.lean ====
section
/-! DEFINITION. LABEL NEXT SECOND (R13, R14) and SET OFFSET (R53 to R55). -/

namespace Sys2Proof.Machine

/-- LABEL NEXT SECOND (R13, R14); every reply carries the Second Number of the interval in progress. -/
def State.takeLabel (s : State) (l : Link) (p : List Byte) : State :=
  let v := u32At p 0
  let sn := be32 s.epoch.sn
  if s.epoch.conflict then s.answer l .conflict sn
  else
    match s.epoch.armed with
    | none => State.answer { s with epoch := { s.epoch with armed := some v } } l .ok sn
    | some w =>
      if w = v then s.answer l .ok sn
      else
        (State.raiseAll { s with epoch := { s.epoch with armed := none, conflict := true } } .labelConflict).answer l
          .conflict sn

/-- A SET OFFSET of link l acts on axis a and is answered with the axis's state after it; until a tick
passes or a READ STATUS shows it (R183), the reading of strobe 4 may still be taken before it (R86). -/
def State.changeAxis (s : State) (l : Link) (a : Axis) (t : OffsetChange) (st : Status) : State :=
  let c := s.axes.get a
  State.answer
    { s with
      axes := s.axes.modify a (AxisChannel.set t)
      earlier := s.earlier.modify a (fun ts => ⟨l, c, t⟩ :: ts) }
    l st (c.set t).offsetPayload

/-- SET OFFSET (R53 to R55): a bad axis or mode code is answered RANGE alone; a FIXED index outside −6..+6 is answered
RANGE with the axis's state. -/
def State.takeSetOffset (s : State) (l : Link) (p : List Byte) : State :=
  match axisOfCode (u8At p 0), modeOfCode (u8At p 1) with
  | some a, some .auto => s.changeAxis l a .auto .ok
  | some a, some .fixed =>
    let m := s8At p 2
    if -indexLimit ≤ m ∧ m ≤ indexLimit then s.changeAxis l a (.fixed m) .ok else s.changeAxis l a .refused .range
  | some _, none => s.answer l .range []
  | none, _ => s.answer l .range []

end Sys2Proof.Machine
end

