-- ==== Sys2Proof/Machine/Queue.lean ====
section
/-! DEFINITION. A link's command queue (R152 to R154): execution at the instant a command enters the executing slot,
arrival of a good command, and the executing command's leaving. -/

namespace Sys2Proof.Machine

/-- A known command of the right length goes to its owning block (R153). -/
def State.takeKind (s : State) (l : Link) (k : Kind) (tag : Byte) (p : List Byte) : State :=
  match k with
  | .readRecords => s.takeReadRecords l p
  | .stream => s.takeStream l tag p
  | .seek => s.takeSeek l p
  | .readStatus => s.takeReadStatus l
  | .readNotice => s.takeReadNotice l
  | .setNoticeMask => s.takeSetNoticeMask l p
  | .mark => s.takeMark l
  | .readMark => s.takeReadMark l
  | .setMarkLine => s.takeSetMarkLine l p
  | .labelNextSecond => s.takeLabel l p
  | .setOffset => s.takeSetOffset l p
  | .openEdit => s.takeOpenEdit l
  | .writeKnot => s.takeWriteKnot l p
  | .writeBand => s.takeWriteBand l p
  | .writeBias => s.takeWriteBias l p
  | .writeHoldoverRate => s.takeWriteHoldover l p
  | .commit => s.takeCommit l
  | .abandon => s.takeAbandon l
  | .lockCalibration => s.takeLock l
  | .readTable => s.takeReadTable l p
  | .setBaseline => s.takeSetBaseline l p

/-- The command in link l's executing slot is executed: kind and length are judged first (R153). -/
def State.execute (s : State) (l : Link) (c : Command) : State :=
  match Kind.ofByte c.kind with
  | none => s.answer l .unknown []
  | some k => if c.payload.length = k.payloadLength then s.takeKind l k c.tag c.payload else s.answer l .length []

/-- A command enters the executing slot. -/
def LinkState.enter (c : Command) (l : LinkState) : LinkState := { l with executing := some ⟨c, none, none⟩ }

/-- A command enters the executing slot and is executed at that instant (R153). -/
def State.begin (s : State) (l : Link) (c : Command) : State := (s.onLink l (LinkState.enter c)).execute l c

/-- The new command takes the waiting slot; one that waited there is displaced and counted (R152). -/
def LinkState.wait (c : Command) (l : LinkState) : LinkState :=
  match l.waiting with
  | none => { l with waiting := some c }
  | some _ =>
    { l with waiting := some c, displaced := bump max8 l.displaced, displacedTotal := bump max16 l.displacedTotal }

/-- The receiver of link l is not in BREAK. -/
def State.listening (s : State) (l : Link) : Bool := !decide ((s.links.get l).rx.state = .brk)

/-- A byte, a frame or a command can reach link l: no break is on (R151), and no byte with a spacing stop bit is
undecided, since the line is then still spacing (R145). -/
def State.hears (s : State) (l : Link) : Bool := s.listening l && !(s.links.get l).rx.undecided

/-- A good command is handed to the queue of its link (R152). -/
def State.handOver (s : State) (l : Link) (c : Command) : State :=
  match (s.links.get l).executing with
  | none => s.begin l c
  | some _ => s.onLink l (LinkState.wait c)

/-- The executing command leaves its slot, and the waiting command moves up and is executed (R154). -/
def State.leave (s : State) (l : Link) : State :=
  match (s.links.get l).waiting with
  | none => s.onLink l (fun k => { k with executing := none })
  | some c => (s.onLink l (fun k => { k with waiting := none })).begin l c

end Sys2Proof.Machine
end

