-- ==== Sys2Proof/Machine/Receiver.lean ====
section
/-! DEFINITION. The receiver of a station link (R145 to R149) and the lines of a link: READY (R140), framing errors,
timeouts, frames and breaks (R150, R151). -/

namespace Sys2Proof.Machine

/-! ## One byte -/

/-- What a received byte leads to. -/
inductive RxResult where
  /-- The receiver goes on in the state given. -/
  | goesOn (r : Receiver)
  /-- The byte ends a frame that is dropped and counted as bad (R147, R148). -/
  | bad
  /-- The byte ends a good frame, which carries this command (R148). -/
  | good (c : Command)
deriving DecidableEq, Repr

/-- LEN of a partial frame. -/
def lenOf (bytes : List Byte) : Nat := (u8At bytes 0).toNat

/-- HUNT: 0xC3 leads to SYNC2 (R146). -/
def Receiver.takeHunt (r : Receiver) (b : Byte) : Receiver :=
  if b = 0xC3 then { r with state := .sync2 } else r

/-- SYNC2: 0x3C starts a partial frame, 0xC3 stays, any other byte returns to HUNT (R146). -/
def Receiver.takeSync2 (r : Receiver) (b : Byte) : Receiver :=
  if b = 0x3C then { r with state := .header, partialFrame := some [], crc := crcInit, gap := 0 }
  else if b = 0xC3 then r
  else { r with state := .hunt }

/-- HEADER: LEN, KIND and TAG; a LEN above 64 drops the frame (R147). -/
def Receiver.takeHeader (r : Receiver) (b : Byte) : RxResult :=
  let bytes := r.partialFrame.getD [] ++ [b]
  if bytes.length = 1 ∧ maxLen < b.toNat then .bad
  else
    .goesOn { r with
      state := if bytes.length < 3 then .header else if lenOf bytes = 0 then .check else .payload
      partialFrame := some bytes
      crc := crcByte r.crc b
      gap := 0 }

/-- PAYLOAD: LEN bytes (R148). -/
def Receiver.takePayload (r : Receiver) (b : Byte) : Receiver :=
  let bytes := r.partialFrame.getD [] ++ [b]
  { r with
    state := if bytes.length < 3 + lenOf bytes then .payload else .check
    partialFrame := some bytes
    crc := crcByte r.crc b
    gap := 0 }

/-- The command a whole frame carries. -/
def commandOf (bytes : List Byte) : Command :=
  ⟨u8At bytes 1, u8At bytes 2, (bytes.drop 3).take (lenOf bytes)⟩

/-- CHECK: two bytes, compared with the register when the second arrives (R148). -/
def Receiver.takeCheck (r : Receiver) (b : Byte) : RxResult :=
  let bytes := r.partialFrame.getD [] ++ [b]
  if bytes.length < 3 + lenOf bytes + 2 then .goesOn { r with partialFrame := some bytes, gap := 0 }
  else if u16At bytes (3 + lenOf bytes) = r.crc then .good (commandOf bytes)
  else .bad

/-- A byte whose stop bit is marking goes to the receiver state's rule (R145); in BREAK no byte is taken (R151). -/
def Receiver.takeByte (r : Receiver) (b : Byte) : RxResult :=
  match r.state with
  | .hunt => .goesOn (r.takeHunt b)
  | .sync2 => .goesOn (r.takeSync2 b)
  | .header => r.takeHeader b
  | .payload => .goesOn (r.takePayload b)
  | .check => r.takeCheck b
  | .brk => .goesOn r

/-- The partial frame is discarded and the receiver enters HUNT. -/
def Receiver.toHunt (r : Receiver) : Receiver :=
  { r with state := .hunt, partialFrame := none, gap := 0, undecided := false }

/-! ## Effects on the link -/

def LinkState.setRx (r : Receiver) (l : LinkState) : LinkState := { l with rx := r }

/-- A frame is dropped as bad (R147, R148, R160). -/
def LinkState.dropBad (l : LinkState) : LinkState :=
  { l with rx := l.rx.toHunt, badFrames := bump max16 l.badFrames }

/-- A good frame's command is handed to the queue, and the receiver enters HUNT (R148). -/
def State.acceptFrame (s : State) (l : Link) (c : Command) : State :=
  (s.onLink l (fun k => k.setRx k.rx.toHunt)).handOver l c

/-- A byte is received (R145 to R148), whatever it leads to. -/
def State.receive (s : State) (l : Link) (b : Byte) : State :=
  match (s.links.get l).rx.takeByte b with
  | .goesOn r => s.onLink l (LinkState.setRx r)
  | .bad => s.onLink l LinkState.dropBad
  | .good c => s.acceptFrame l c

/-- The byte ends a frame whose CRC matches. -/
def RxResult.isGood : RxResult → Bool
  | .goesOn _ => false
  | .bad => false
  | .good _ => true

/-- The byte ends a frame that is dropped. -/
def RxResult.isBad : RxResult → Bool
  | .goesOn _ => false
  | .bad => true
  | .good _ => false

/-- The byte whose stop bit was spacing is held undecided, and stops the gap (R145, R149). -/
def LinkState.holdByte (l : LinkState) : LinkState := { l with rx := { l.rx with undecided := true } }

/-- A stop bit has been sampled (R145). -/
def State.stopBit (s : State) (l : Link) : StopBit → State
  | .marking b => s.receive l b
  | .spacing => s.onLink l LinkState.holdByte

/-- A byte's stop bit (R145). Marking: the receiver takes the byte by its state's rule; where it ends a frame the effects
are those of GOOD_FRAME or BAD_FRAME. Spacing: the byte is held undecided until FRAMING_ERROR or BREAK (assumption log
21). -/
def execByteReceived (wait : Nat) (l : Link) (b : StopBit) (s : State) : Host.Outcome State Fault Refusal :=
  s.atInstant wait (fun s => s.hears l) (fun s => s.stopBit l b)

/-- The byte that drops a frame: a LEN above 64 (R147), or the second CRC byte of a frame whose CRC does not match
(R148). -/
def execBadFrame (wait : Nat) (l : Link) (b : Byte) (s : State) : Host.Outcome State Fault Refusal :=
  s.atInstant wait (fun s => s.hears l && ((s.links.get l).rx.takeByte b).isBad) (fun s => s.onLink l LinkState.dropBad)

/-- The second CRC byte of a frame whose CRC matches (R148): the command goes to the queue (R152). -/
def execGoodFrame (wait : Nat) (l : Link) (b : Byte) (s : State) : Host.Outcome State Fault Refusal :=
  s.atInstant wait (fun s => s.hears l && ((s.links.get l).rx.takeByte b).isGood) (fun s => s.receive l b)

/-- A framing error discards the partial frame and is counted (R145). -/
def LinkState.framingError (l : LinkState) : LinkState :=
  { l with rx := l.rx.toHunt, framingErrors := bump max16 l.framingErrors }

/-- R145: in any state but BREAK. The byte's stop bit may have come before as a BYTE_RECEIVED of its own, or stands for
itself here (assumption log 21). -/
def execFramingError (wait : Nat) (l : Link) (s : State) : Host.Outcome State Fault Refusal :=
  s.atInstant wait (fun s => s.listening l) (fun s => s.onLink l LinkState.framingError)

/-- The inter-byte timeout drops the frame and is counted (R149). -/
def LinkState.timeOut (l : LinkState) : LinkState :=
  { l with rx := l.rx.toHunt, timeouts := bump max16 l.timeouts }

/-- R149: 50 ms after the last byte's stop bit without the stop bit of the next, in HEADER, PAYLOAD and CHECK. -/
def execInterByteTimeout (l : Link) (s : State) : Host.Outcome State Fault Refusal :=
  s.atInstant (gapTicks - (s.links.get l).rx.gap) (fun s => (s.links.get l).rx.timing)
    (fun s => s.onLink l LinkState.timeOut)

/-- READY changes (R140). What the transmitter then begins is REPLY_BEGIN, TRANSFER_FRAME_BEGIN or STREAM_FRAME_BEGIN
of the same instant (R158). -/
def execReadyChange (wait : Nat) (l : Link) (level : Bool) (s : State) : Host.Outcome State Fault Refusal :=
  s.atInstant wait (fun _ => true) (fun s => s.onLink l (fun k => { k with ready := level }))

/-! ## Breaks -/

/-- The command of the frame on the line has been removed (R150). -/
def FrameKind.disown : FrameKind → FrameKind
  | .reply _ => .reply false
  | .transfer _ q => .transfer false q
  | .stream q => .stream q

/-- What a break does to its link (R150, R172). -/
def LinkState.startBreak (l : LinkState) : LinkState :=
  { l with
    rx := { l.rx with state := .brk, partialFrame := none, gap := 0, undecided := false }
    executing := none
    waiting := none
    stream := false
    displaced := 0
    breaks := bump max16 l.breaks
    tx := l.tx.map (fun t => { t with what := t.what.disown }) }

/-- A break on link l abandons an EDITING edit it holds; a COMMITTING edit keeps its holder (R116). -/
def Edit.onBreak (l : Link) : Edit → Edit
  | .none => .none
  | .editing h sh idle => if h = l then .none else .editing h sh idle
  | .committing h sh broken => .committing h sh (broken || Decidable.decide (h = l))

/-- A break starts on link l (R150). -/
def State.startBreak (s : State) (l : Link) : State :=
  State.onLink { s with cal := { s.cal with edit := s.cal.edit.onBreak l } } l LinkState.startBreak

/-- R150: the line has been spacing for 20 bit times, whatever the receiver state; a break in progress starts none. -/
def execLineBreak (wait : Nat) (l : Link) (s : State) : Host.Outcome State Fault Refusal :=
  s.atInstant wait (fun s => s.listening l) (fun s => s.startBreak l)

/-- R151: the line returns to marking and the receiver enters HUNT. -/
def execBreakEnd (wait : Nat) (l : Link) (s : State) : Host.Outcome State Fault Refusal :=
  s.atInstant wait (fun s => !s.listening l) (fun s => s.onLink l (fun k => k.setRx { k.rx with state := .hunt }))

end Sys2Proof.Machine
end

