-- ==== Sys2Proof/Machine/Resets.lean ====
section
/-! DEFINITION. Power and resets (R17, R18, R121 to R124, R138, R139, R161, R185). -/

namespace Sys2Proof.Machine

/-- The blocks at a reset boundary; ring, links and samples are what the two resets treat differently (Tables 1-7,
2-4, 3-3, 4-3, 5-8, 6-5). -/
def State.resetBlocks (s : State) (ring : Ring) (links : PerLink LinkState) (samples : Samples) : State where
  powered := true
  epoch := EpochTimer.atReset
  disc := Discipline.atReset
  axes := PerAxis.fill AxisChannel.atReset
  thermTS := Thermometer.atReset
  thermTO := Thermometer.atReset
  cal := CalUnit.atReset s.store.image
  store := Store.atReset s.store.image
  asm := Assembler.atReset s.store.image.loaded.version
  ring := ring
  links := links
  resetWaiting := false
  samples := samples
  replaced := none
  earlier := PerAxis.fill []
  choices := s.choices
  pending := s.pending

/-- Power-on: the ring is emptied and every cursor is 0 (R138). The READY inputs keep the level their stations give
them. -/
def State.powerOn (s : State) : State :=
  s.resetBlocks Ring.empty (s.links.map (fun k => LinkState.atReset k.ready 0)) Samples.atPowerOn

/-- POWER_ON_RESET (R17): power is applied, whatever went before. -/
def execPowerOnReset (s : State) : Host.Outcome State Fault Refusal := .next s.powerOn

/-- Warm reset: the ring and every cursor are kept (R139), and the sampling of the inputs goes on (R19, R178). -/
def State.warm (s : State) : State :=
  s.resetBlocks s.ring (s.links.map (fun k => LinkState.atReset k.ready k.cursor)) s.samples

/-- WARM_RESET (R17, R18, R123): a requested reset takes effect at this instant, if no store write is in flight. Without a
request recognised there is no reset. -/
def execWarmReset (s : State) : Host.Outcome State Fault Refusal := s.atInstant 0 State.resetDue State.warm

/-- RESET_REQUEST (R18): an edge needs the input found low at the tick before; a request while one waits adds nothing. -/
def execResetRequest (wait : Nat) (s : State) : Host.Outcome State Fault Refusal :=
  s.atInstant wait (fun s => decide (s.samples.reset = 2))
    (fun s => { s with resetWaiting := true, samples := { s.samples with reset := 0 } })

/-- The image found after a power loss (R123). Of an image whose CRC fails the manual says no more: that it holds the contents
being written and legal mode codes is the model's (DESIGN CHOICE, assumption log 8), and nothing reads either while the CRC
fails (R121). -/
def Store.afterLoss (st : Store) (found : LossImage) : Store :=
  match st.inFlight, found with
  | none, _ => st
  | some _, .before => { st with inFlight := none }
  | some w, .written => { st with inFlight := none, image := ⟨w.contents, true, true⟩ }
  | some w, .crcFails => { st with inFlight := none, image := ⟨w.contents, true, false⟩ }

/-- POWER_LOSS (R123): the part does nothing more until power is applied again. -/
def execPowerLoss (wait : Nat) (found : LossImage) (s : State) : Host.Outcome State Fault Refusal :=
  s.atInstant wait (fun _ => true) (fun s => { s with powered := false, store := s.store.afterLoss found })

end Sys2Proof.Machine
end

