-- ==== Sys2Proof/Machine/StationCommands.lean ====
section
/-! DEFINITION. The rows of the opcode table that are station commands. Each row is the arrival of that command, good, at
its link's queue (R152): with the executing slot empty it is taken at once (R153); else it waits, and displaces the one
that waited. What the command does when it is taken stands in RecordCommands, NoticeCommands, ScaleCommands and
EditCommands (assumption log 7). -/

namespace Sys2Proof.Machine

/-- A station command reaches the queue of link l; none arrives during a break (R151). DESIGN CHOICE (assumption log 7): the
row stands for the command's arrival alone, so the receiver is left in the state it is in, also in SYNC2, HEADER, PAYLOAD or
CHECK, although by R148 the end of a frame enters HUNT; BYTE_RECEIVED and GOOD_FRAME take the frame through the receiver. -/
def State.station (s : State) (wait : Nat) (l : Link) (c : Command) : Host.Outcome State Fault Refusal :=
  s.atInstant wait (fun s => s.hears l) (fun s => s.handOver l c)

/-- A command whose KIND names no command (R153); a KIND that names one is not this event. The receiver is left as it is, as
by State.station (DESIGN CHOICE, assumption log 7). -/
def execUnknownKind (wait : Nat) (l : Link) (kind tag : Byte) (p : List Byte) (s : State) :
    Host.Outcome State Fault Refusal :=
  s.atInstant wait (fun s => s.hears l && (Kind.ofByte kind).isNone) (fun s => s.handOver l ⟨kind, tag, p⟩)

/-- READ RECORDS (R162) reaches its link's queue. -/
def execReadRecords (wait : Nat) (l : Link) (tag : Byte) (p : List Byte) (s : State) : Host.Outcome State Fault Refusal :=
  s.station wait l ⟨Kind.code .readRecords, tag, p⟩

/-- STREAM (R169) reaches its link's queue. -/
def execStream (wait : Nat) (l : Link) (tag : Byte) (p : List Byte) (s : State) : Host.Outcome State Fault Refusal :=
  s.station wait l ⟨Kind.code .stream, tag, p⟩

/-- SEEK (R133) reaches its link's queue. -/
def execSeek (wait : Nat) (l : Link) (tag : Byte) (p : List Byte) (s : State) : Host.Outcome State Fault Refusal :=
  s.station wait l ⟨Kind.code .seek, tag, p⟩

/-- READ STATUS (R183) reaches its link's queue. -/
def execReadStatus (wait : Nat) (l : Link) (tag : Byte) (p : List Byte) (s : State) : Host.Outcome State Fault Refusal :=
  s.station wait l ⟨Kind.code .readStatus, tag, p⟩

/-- READ NOTICE (R176) reaches its link's queue. -/
def execReadNotice (wait : Nat) (l : Link) (tag : Byte) (p : List Byte) (s : State) : Host.Outcome State Fault Refusal :=
  s.station wait l ⟨Kind.code .readNotice, tag, p⟩

/-- SET NOTICE MASK (R175) reaches its link's queue. -/
def execSetNoticeMask (wait : Nat) (l : Link) (tag : Byte) (p : List Byte) (s : State) : Host.Outcome State Fault Refusal :=
  s.station wait l ⟨Kind.code .setNoticeMask, tag, p⟩

/-- MARK (R179) reaches its link's queue. -/
def execMark (wait : Nat) (l : Link) (tag : Byte) (p : List Byte) (s : State) : Host.Outcome State Fault Refusal :=
  s.station wait l ⟨Kind.code .mark, tag, p⟩

/-- READ MARK (R182) reaches its link's queue. -/
def execReadMark (wait : Nat) (l : Link) (tag : Byte) (p : List Byte) (s : State) : Host.Outcome State Fault Refusal :=
  s.station wait l ⟨Kind.code .readMark, tag, p⟩

/-- SET MARK LINE (R181) reaches its link's queue. -/
def execSetMarkLine (wait : Nat) (l : Link) (tag : Byte) (p : List Byte) (s : State) : Host.Outcome State Fault Refusal :=
  s.station wait l ⟨Kind.code .setMarkLine, tag, p⟩

/-- LABEL NEXT SECOND (R13) reaches its link's queue. -/
def execLabelNextSecond (wait : Nat) (l : Link) (tag : Byte) (p : List Byte) (s : State) : Host.Outcome State Fault Refusal :=
  s.station wait l ⟨Kind.code .labelNextSecond, tag, p⟩

/-- SET OFFSET (R53) reaches its link's queue. -/
def execSetOffset (wait : Nat) (l : Link) (tag : Byte) (p : List Byte) (s : State) : Host.Outcome State Fault Refusal :=
  s.station wait l ⟨Kind.code .setOffset, tag, p⟩

/-- OPEN EDIT (R107) reaches its link's queue. -/
def execOpenEdit (wait : Nat) (l : Link) (tag : Byte) (p : List Byte) (s : State) : Host.Outcome State Fault Refusal :=
  s.station wait l ⟨Kind.code .openEdit, tag, p⟩

/-- WRITE KNOT (R109) reaches its link's queue. -/
def execWriteKnot (wait : Nat) (l : Link) (tag : Byte) (p : List Byte) (s : State) : Host.Outcome State Fault Refusal :=
  s.station wait l ⟨Kind.code .writeKnot, tag, p⟩

/-- WRITE BAND (R110) reaches its link's queue. -/
def execWriteBand (wait : Nat) (l : Link) (tag : Byte) (p : List Byte) (s : State) : Host.Outcome State Fault Refusal :=
  s.station wait l ⟨Kind.code .writeBand, tag, p⟩

/-- WRITE BIAS (R111) reaches its link's queue. -/
def execWriteBias (wait : Nat) (l : Link) (tag : Byte) (p : List Byte) (s : State) : Host.Outcome State Fault Refusal :=
  s.station wait l ⟨Kind.code .writeBias, tag, p⟩

/-- WRITE HOLDOVER RATE (R111) reaches its link's queue. -/
def execWriteHoldoverRate (wait : Nat) (l : Link) (tag : Byte) (p : List Byte) (s : State) : Host.Outcome State Fault Refusal :=
  s.station wait l ⟨Kind.code .writeHoldoverRate, tag, p⟩

/-- COMMIT (R112) reaches its link's queue. -/
def execCommit (wait : Nat) (l : Link) (tag : Byte) (p : List Byte) (s : State) : Host.Outcome State Fault Refusal :=
  s.station wait l ⟨Kind.code .commit, tag, p⟩

/-- ABANDON (R115) reaches its link's queue. -/
def execAbandon (wait : Nat) (l : Link) (tag : Byte) (p : List Byte) (s : State) : Host.Outcome State Fault Refusal :=
  s.station wait l ⟨Kind.code .abandon, tag, p⟩

/-- LOCK CALIBRATION (R117) reaches its link's queue. -/
def execLockCalibration (wait : Nat) (l : Link) (tag : Byte) (p : List Byte) (s : State) : Host.Outcome State Fault Refusal :=
  s.station wait l ⟨Kind.code .lockCalibration, tag, p⟩

/-- READ TABLE (R80) reaches its link's queue. -/
def execReadTable (wait : Nat) (l : Link) (tag : Byte) (p : List Byte) (s : State) : Host.Outcome State Fault Refusal :=
  s.station wait l ⟨Kind.code .readTable, tag, p⟩

/-- SET BASELINE (R118) reaches its link's queue. -/
def execSetBaseline (wait : Nat) (l : Link) (tag : Byte) (p : List Byte) (s : State) : Host.Outcome State Fault Refusal :=
  s.station wait l ⟨Kind.code .setBaseline, tag, p⟩

end Sys2Proof.Machine
end

