-- ==== Sys2Proof/Machine/Clock.lean ====
section
/-! DEFINITION. Boundaries (R2, R3, R7 to R12, R14, R15, R31) and the Discipline Controller's evaluation of edges and
missing windows (R20 to R36). -/

namespace Sys2Proof.Machine

/-! ## Boundaries -/

/-- In HOLDOVER a boundary adds h to U, capped (R31). -/
def Discipline.grow (h : Nat) (d : Discipline) : Discipline :=
  if d.clock = .holdover then { d with u := min uncertaintyFree (d.u + h) } else d

/-- An armed label differs from the provisional Second Number (R15). -/
def isLabelStep (armed : Option Word) (provisional : Word) : Bool :=
  match armed with
  | none => false
  | some v => !decide (v = provisional)

/-- The kind of the STEP notice a boundary raises, if it raises one (R12). -/
def stepNoticeKind (isStep labelStep : Bool) : Option StepKind :=
  match isStep, labelStep with
  | true, true => some .phaseAndLabel
  | true, false => some .phase
  | false, true => some .label
  | false, false => none

/-- The epoch timer at a boundary with total frequency y_disc + y_temp (R3, R11, R15): `isStep` leaves out the
pending adjustment, which is cleared either way. -/
def EpochTimer.atBoundary (e : EpochTimer) (isStep : Bool) (provisional : Word) (yDisc yTemp : Int) : EpochTimer :=
  let total := e.acc + (yDisc + yTemp)
  let added := if isStep then 0 else e.pendingAdj.getD 0
  { tickPos := 0
    issued := false
    len := (nominalTicks + total / accModulus + added).toNat
    acc := total % accModulus
    pendingAdj := none
    yTemp := yTemp
    sn := e.armed.getD provisional
    label := if e.armed.isSome then .labelled else e.label
    armed := none
    conflict := false
    epochOutLeft := epochOutTicks }

/-- A boundary orders a sample; a conversion in progress is abandoned (R61). -/
def Thermometer.order (t : Thermometer) : Thermometer := { t with conversion := some conversionTicks }

/-- What a boundary does to the slot: an ordinary one meets the slot whose centre is NEXT (R84); a step boundary
empties every open slot and opens the rebuilt one (R98, R99). -/
def Assembler.atBoundary (a : Assembler) (isStep : Bool) (sn : Word) (label : LabelState) (labelStep : Bool) : Assembler :=
  if isStep then { a with slot := some (Slot.rebuilt sn label labelStep) }
  else { a with slot := a.slot.map (fun sl => sl.arrive sn label labelStep) }

/-- Raise the STEP notice of a boundary, if it raises one (R12). -/
def State.raiseStep (s : State) : Option StepKind → State
  | none => s
  | some k => s.raiseAll (.step k s.epoch.sn)

/-- A boundary, ordinary or step, with its provisional Second Number. -/
def State.boundary (s : State) (isStep : Bool) (provisional : Word) : State :=
  let look := s.cal.active.table.osc.lookup s.thermTO
  let labelStep := isLabelStep s.epoch.armed provisional
  let epoch := s.epoch.atBoundary isStep provisional s.disc.yDisc look.o
  State.raiseStep
    { s with
      epoch := epoch
      disc := { s.disc.grow s.cal.active.h with windowArrived := true }
      thermTS := s.thermTS.order
      thermTO := s.thermTO.order
      cal := { s.cal with oscVoid := look.uncorrected, oscClamp := look.tempClamp }
      asm := s.asm.atBoundary isStep epoch.sn epoch.label labelStep }
    (stepNoticeKind isStep labelStep)

/-! ## Clock states -/

/-- What entry to a clock state sets (R24 to R27, R30, R33, R38). -/
def Discipline.enter (d : Discipline) : ClockState → Discipline
  | .free => { d with clock := .free, outlierRun := 0, missingRun := 0, u := uncertaintyFree }
  | .acquire => { d with clock := .acquire, good := 0, outlierRun := 0, missingRun := 0, u := uncertaintyAcquire }
  | .track => { d with clock := .track, outlierRun := 0, missingRun := 0, trained := true }
  | .holdover => { d with clock := .holdover, outlierRun := 0, missingRun := 0 }

/-- A change of clock state: the entry's settings and a CLOCK notice on all links (R24). -/
def State.enterClock (s : State) (c : ClockState) : State :=
  State.raiseAll { s with disc := s.disc.enter c } (.clock c)

/-! ## Updates -/

/-- A frequency update with its clamp (R34). -/
def Discipline.addFrequency (d : Discipline) (inc : Int) : Discipline :=
  { d with
    yDisc := clampTo (-yDiscLimit) yDiscLimit (d.yDisc + inc)
    freqLimit := decide (d.yDisc + inc < -yDiscLimit) || decide (yDiscLimit < d.yDisc + inc) }

/-- U of an accepted phase (R28). -/
def uncertaintyOf (p : Int) : Nat := max 100 (100 * p.natAbs)

/-- The phase update of an accepted edge replaces any pending adjustment (R35). -/
def State.setAdjustment (s : State) (v : Int) : State := { s with epoch := { s.epoch with pendingAdj := some v } }

/-- The TRACK update (R28). -/
def State.trackUpdate (s : State) (p : Int) : State :=
  State.setAdjustment
    { s with disc := { s.disc.addFrequency (roundDiv (p * phaseGain) 16) with
        u := uncertaintyOf p, outlierRun := 0, missingRun := 0 } }
    (roundDiv p 2)

/-- An accepted edge in ACQUIRE (R26); the sixteenth leads to TRACK. -/
def State.acquireUpdate (s : State) (p : Int) : State :=
  let d := s.disc.addFrequency (p * phaseGain)
  let s := State.setAdjustment { s with disc := { d with good := d.good + 1, missingRun := 0 } } p
  if goodToTrack ≤ s.disc.good then
    let s := s.enterClock .track
    { s with disc := { s.disc with u := uncertaintyOf p } }
  else s

/-- A phase step (R10, R36): ADVANCE for p below 0, REPEAT otherwise. It ends the interval in progress; at p = 0 that is the
empty one that the boundary of the tick began, or, where the step is taken first, the one that boundary would have ended, and
no ordinary boundary follows at that tick (R101; the number, assumption log 10). -/
def State.phaseStep (s : State) (p : Int) : State :=
  s.boundary true (if p < 0 then s.epoch.sn + 1 else s.epoch.sn)

/-- An outlier in TRACK; the fourth in a run orders a phase step (R29). -/
def State.outlierEdge (s : State) (p : Int) : State :=
  let d := { s.disc with outlierRun := s.disc.outlierRun + 1, outliers := bump max16 s.disc.outliers }
  if outliersToStep ≤ d.outlierRun then (State.enterClock { s with disc := d } .acquire).phaseStep p
  else { s with disc := d }

/-- A measured edge, by the rule of the present clock state (R25 to R29, R32). -/
def State.evaluateEdge (s : State) (p : Int) : State :=
  match s.disc.clock with
  | .free => (s.enterClock .acquire).phaseStep p
  | .acquire =>
    if p.natAbs ≤ acquireLimit then s.acquireUpdate p
    else State.phaseStep { s with disc := { s.disc with good := 0, missingRun := 0 } } p
  | .track => if p.natAbs ≤ trackLimit then s.trackUpdate p else s.outlierEdge p
  | .holdover =>
    if p.natAbs ≤ trackLimit then (s.enterClock .track).trackUpdate p
    else (s.enterClock .acquire).phaseStep p

/-- The phase of an edge at the present tick: from the boundary of the open window (R21). -/
def State.phaseNow (s : State) : Int :=
  if s.disc.windowArrived then s.epoch.tickPos else (s.epoch.tickPos : Int) - s.epoch.len

/-- A recognised PPS edge (R19, R21, R22). -/
def State.ppsRecognised (s : State) : State :=
  let s := { s with samples := { s.samples with pps := 0 } }
  if s.disc.windowMeasured then { s with disc := { s.disc with spurious := bump max16 s.disc.spurious } }
  else
    State.evaluateEdge { s with disc := { s.disc with windowMeasured := true, lastPhase := some s.phaseNow } } s.phaseNow

/-- A window that closed without a measured edge, by the rule of the present clock state (R25, R27, R30, R32). -/
def State.missingWindow (s : State) : State :=
  match s.disc.clock with
  | .free => s
  | .acquire =>
    let s := { s with disc := { s.disc with good := 0, missingRun := s.disc.missingRun + 1 } }
    if missingToLeave ≤ s.disc.missingRun then s.enterClock (if s.disc.trained then .holdover else .free) else s
  | .track =>
    let s := { s with disc := { s.disc with missingRun := s.disc.missingRun + 1 } }
    if missingToLeave ≤ s.disc.missingRun then s.enterClock .holdover else s
  | .holdover => s

/-- The midpoint mark closes one capture window and opens the next (R20, R23). -/
def State.closeWindow (s : State) : State :=
  let s := if s.disc.windowMeasured then s else s.missingWindow
  { s with disc := { s.disc with windowArrived := false, windowMeasured := false } }

end Sys2Proof.Machine
end

