-- ==== Sys2Proof/Machine/Timer.lean ====
section
/-! DEFINITION. The events of the time scale and of the blocks that follow it: boundaries, strobes, midpoint marks, PPS
edges, conversions, marks, the idle expiry and the end of a store write. -/

namespace Sys2Proof.Machine

/-- ORDINARY_BOUNDARY (R1, R3, R8): the tick position reaches L; the provisional Second Number counts on. -/
def execOrdinaryBoundary (s : State) : Host.Outcome State Fault Refusal :=
  s.atInstant (s.epoch.len - s.epoch.tickPos) (fun _ => true) (fun s => s.boundary false (s.epoch.sn + 1))

/-- EPOCH_OUT_END (R9): the remaining count reaches 0 and the output is released. -/
def execEpochOutEnd (s : State) : Host.Outcome State Fault Refusal :=
  s.atInstant s.epoch.epochOutLeft (fun _ => decide (0 < s.epoch.epochOutLeft)) id

/-- The instant at the present tick position has been issued. -/
def State.markIssued (s : State) : State := { s with epoch := { s.epoch with issued := true } }

/-- Strobe 4 is a free choice (R86). -/
def State.countChoice (s : State) (k : Nat) : State := if k = 4 then { s with choices := s.choices + 1 } else s

/-- The work of strobe k: a slot opens at k = 5, the axes take their readings, and the slot completes at k = 4 (R44,
R82, R83, R85). -/
def State.strobeWork (s : State) (k : Nat) (codeX codeY codeZ : Int) (disturb : Bool) : State :=
  let s := s.markIssued.keepReplaced.openSlotIfDue k
  let s := ((s.strobeAxis .X k codeX disturb).strobeAxis .Y k codeY disturb).strobeAxis .Z k codeZ disturb
  (s.countChoice k).completeIfDue k

/-- STROBE (R5): the tick position reaches the next strobe position of the interval. -/
def execStrobe (codeX codeY codeZ : Int) (disturb : Bool) (s : State) : Host.Outcome State Fault Refusal :=
  match s.epoch.nextStrobe with
  | none => .next s
  | some k =>
    s.atInstant (strobePos k - s.epoch.tickPos) (fun _ => true) (fun s => s.strobeWork k codeX codeY codeZ disturb)

/-- MIDPOINT_MARK (R6, R20): once in an interval, at floor(L/2). -/
def execMidpointMark (s : State) : Host.Outcome State Fault Refusal :=
  s.atInstant (s.epoch.midpoint - s.epoch.tickPos) (fun _ => s.epoch.ahead s.epoch.midpoint)
    (fun s => s.markIssued.closeWindow)

/-- PPS_EDGE (R19, R21): an edge needs the input found low at the tick before. -/
def execPpsEdge (wait : Nat) (s : State) : Host.Outcome State Fault Refusal :=
  s.atInstant wait (fun s => decide (s.samples.pps = 2)) State.ppsRecognised

/-- CONVERSION_END (R61, R62): the conversion in progress of the channel ends and its result is taken. -/
def execConversionEnd (ch : Channel) (result : ConvResult) (s : State) : Host.Outcome State Fault Refusal :=
  match (s.thermometer ch).conversion with
  | none => .next s
  | some n => s.atInstant n (fun _ => true) (fun s => s.takeConversion ch result)

/-- A MARK line edge: one capture, offered to every link whose line-mark enable is on (R178). -/
def State.lineMark (s : State) : State :=
  { s.markTaken with
    links := s.links.map (LinkState.offerLine (s.capture .line))
    samples := { s.samples with mark := 0 } }

/-- MARK_LINE_EDGE (R178). -/
def execMarkLineEdge (wait : Nat) (s : State) : Host.Outcome State Fault Refusal :=
  s.atInstant wait (fun s => decide (s.samples.mark = 2)) State.lineMark

/-- The edit of holder h expires (R108). -/
def State.expire (s : State) (h : Link) : State :=
  State.raiseOn { s with cal := { s.cal with edit := .none } } h .editExpired

/-- IDLE_EXPIRY (R108): the idle timer reaches 0 in EDITING. -/
def execIdleExpiry (s : State) : Host.Outcome State Fault Refusal :=
  match s.cal.edit with
  | .none => .next s
  | .editing h _ idle => s.atInstant idle (fun _ => true) (fun s => s.expire h)
  | .committing _ _ _ => .next s

/-- A write in flight may end now: 200,000 to 600,000 ticks after its start (R119). -/
def State.writeMayEnd (s : State) : Bool :=
  match s.store.inFlight with
  | none => false
  | some w => decide (writeMinTicks ≤ w.elapsed) && decide (w.elapsed ≤ writeMaxTicks)

/-- The write in flight ends with this outcome (R120). -/
def State.writeEnd (s : State) (success : Bool) : State :=
  match s.store.inFlight with
  | none => s
  | some w => s.endWrite w success

/-- STORE_WRITE_END (R120). -/
def execStoreWriteEnd (wait : Nat) (success : Bool) (s : State) : Host.Outcome State Fault Refusal :=
  s.atInstant wait State.writeMayEnd (fun s => s.writeEnd success)

end Sys2Proof.Machine
end

