-- ==== Sys2Proof/Machine/Transmitter.lean ====
section
/-! DEFINITION. The transmitter of a station link (R154, R155, R157 to R159) with the frames of transfers (R163, R164)
and of the stream (R170). -/

namespace Sys2Proof.Machine

/-- The transmitter of link l begins a frame of this choice now: R157, and no reset takes effect at this instant
(R161, assumption log 6). -/
def State.begins (s : State) (l : Link) (c : Choice) : Bool :=
  decide ((s.links.get l).choice s.ring.next = some c) && !s.resetDue

/-- KIND of a transfer's record frames and of stream frames (section 9.1). -/
def transferKind : Byte := 0xA0
def streamKind : Byte := 0xA1

/-! ## Replies -/

/-- The reply frame begins; it carries the displaced count, which becomes 0 (R155). -/
def LinkState.beginReply (l : LinkState) : LinkState :=
  match l.executing with
  | none => l
  | some e =>
    match e.reply with
    | none => l
    | some r =>
      { l with
        tx := some ⟨.reply true, replyFrame e.command.kind e.command.tag r.status l.displaced r.payload⟩
        displaced := 0 }

def execReplyBegin (l : Link) (s : State) : Host.Outcome State Fault Refusal :=
  s.atInstant 0 (fun s => s.begins l .reply) (fun s => s.onLink l LinkState.beginReply)

/-- A reply frame is on the line. -/
def LinkState.sendsReply (l : LinkState) : Bool :=
  match l.tx with
  | some ⟨.reply _, _⟩ => true
  | some ⟨.transfer _ _, _⟩ => false
  | some ⟨.stream _, _⟩ => false
  | none => false

def LinkState.lineIdle (l : LinkState) : LinkState := { l with tx := none }

/-- The last CRC byte of the reply has been sent: the line is free and, unless a break has removed it, the command
leaves its slot (R150, R154). -/
def State.endReply (s : State) (l : Link) : State :=
  match (s.links.get l).tx with
  | some ⟨.reply true, _⟩ => (s.onLink l LinkState.lineIdle).leave l
  | some ⟨.reply false, _⟩ => s.onLink l LinkState.lineIdle
  | some ⟨.transfer _ _, _⟩ => s
  | some ⟨.stream _, _⟩ => s
  | none => s

def execReplySent (wait : Nat) (l : Link) (s : State) : Host.Outcome State Fault Refusal :=
  s.atInstant wait (fun s => (s.links.get l).sendsReply) (fun s => s.endReply l)

/-! ## Frames of a transfer -/

/-- The TAG of the executing command. -/
def LinkState.executingTag (l : LinkState) : Byte :=
  match l.executing with
  | none => 0
  | some e => e.command.tag

/-- The frame begins and captures the record at the cursor (R163). -/
def State.beginTransferFrame (s : State) (l : Link) : State :=
  let k := s.links.get l
  match s.ring.find k.cursor with
  | none => s
  | some q =>
    s.onLink l (fun k => { k with tx := some ⟨.transfer true q, recordFrame transferKind k.executingTag q.payload⟩ })

def execTransferFrameBegin (l : Link) (s : State) : Host.Outcome State Fault Refusal :=
  s.atInstant 0 (fun s => s.begins l .transfer) (fun s => s.beginTransferFrame l)

/-- A transfer frame is on the line. -/
def LinkState.sendsTransfer (l : LinkState) : Bool :=
  match l.tx with
  | some ⟨.reply _, _⟩ => false
  | some ⟨.transfer _ _, _⟩ => true
  | some ⟨.stream _, _⟩ => false
  | none => false

/-- The delivered count increases by one (R164). -/
def Executing.countDelivered (e : Executing) : Executing :=
  { e with transfer := e.transfer.map (fun t => { t with delivered := t.delivered + 1 }) }

/-- The delivered count of the executing command increases by one (R164). -/
def LinkState.countDelivered (l : LinkState) : LinkState :=
  { l with executing := l.executing.map Executing.countDelivered }

/-- A transfer frame is delivered (R164): the cursor, the delivered count, the end test. After a break only the cursor
is left to advance (R168). -/
def LinkState.endTransferFrame (next : Word) (l : LinkState) : LinkState :=
  match l.tx with
  | some ⟨.transfer true q, _⟩ => ((l.lineIdle.deliver q.seq).countDelivered).endTest next
  | some ⟨.transfer false q, _⟩ => l.lineIdle.deliver q.seq
  | some ⟨.reply _, _⟩ => l
  | some ⟨.stream _, _⟩ => l
  | none => l

def execTransferFrameDelivered (wait : Nat) (l : Link) (s : State) : Host.Outcome State Fault Refusal :=
  s.atInstant wait (fun s => (s.links.get l).sendsTransfer)
    (fun s => s.onLink l (LinkState.endTransferFrame s.ring.next))

/-! ## Frames of the stream -/

/-- A stream frame begins and captures the record at the cursor (R170). -/
def State.beginStreamFrame (s : State) (l : Link) : State :=
  let k := s.links.get l
  match s.ring.find k.cursor with
  | none => s
  | some q => s.onLink l (fun k => { k with tx := some ⟨.stream q, recordFrame streamKind k.streamTag q.payload⟩ })

def execStreamFrameBegin (l : Link) (s : State) : Host.Outcome State Fault Refusal :=
  s.atInstant 0 (fun s => s.begins l .stream) (fun s => s.beginStreamFrame l)

/-- A stream frame is on the line. -/
def LinkState.sendsStream (l : LinkState) : Bool :=
  match l.tx with
  | some ⟨.reply _, _⟩ => false
  | some ⟨.transfer _ _, _⟩ => false
  | some ⟨.stream _, _⟩ => true
  | none => false

/-- A stream frame is delivered, whatever the stream flag (R170). -/
def LinkState.endStreamFrame (l : LinkState) : LinkState :=
  match l.tx with
  | some ⟨.stream q, _⟩ => l.lineIdle.deliver q.seq
  | some ⟨.reply _, _⟩ => l
  | some ⟨.transfer _ _, _⟩ => l
  | none => l

def execStreamFrameDelivered (wait : Nat) (l : Link) (s : State) : Host.Outcome State Fault Refusal :=
  s.atInstant wait (fun s => (s.links.get l).sendsStream) (fun s => s.onLink l LinkState.endStreamFrame)

end Sys2Proof.Machine
end

