-- ==== Sys2Proof/Machine/Dispatch.lean ====
section
/-! DEFINITION. One arm for each row of the opcode table, each one direct call of its meaning. -/

namespace Sys2Proof.Machine

def exec (i : Instr) (s : State) : Host.Outcome State Fault Refusal :=
  match i with
  | .powerOnReset => Sys2Proof.Machine.execPowerOnReset s
  | .resetRequest w => Sys2Proof.Machine.execResetRequest w s
  | .warmReset => Sys2Proof.Machine.execWarmReset s
  | .ordinaryBoundary => Sys2Proof.Machine.execOrdinaryBoundary s
  | .epochOutEnd => Sys2Proof.Machine.execEpochOutEnd s
  | .strobe cx cy cz d => Sys2Proof.Machine.execStrobe cx cy cz d s
  | .midpointMark => Sys2Proof.Machine.execMidpointMark s
  | .ppsEdge w => Sys2Proof.Machine.execPpsEdge w s
  | .conversionEnd ch r => Sys2Proof.Machine.execConversionEnd ch r s
  | .markLineEdge w => Sys2Proof.Machine.execMarkLineEdge w s
  | .idleExpiry => Sys2Proof.Machine.execIdleExpiry s
  | .storeWriteEnd w ok => Sys2Proof.Machine.execStoreWriteEnd w ok s
  | .readyChange w l v => Sys2Proof.Machine.execReadyChange w l v s
  | .framingError w l => Sys2Proof.Machine.execFramingError w l s
  | .interByteTimeout l => Sys2Proof.Machine.execInterByteTimeout l s
  | .badFrame w l b => Sys2Proof.Machine.execBadFrame w l b s
  | .goodFrame w l b => Sys2Proof.Machine.execGoodFrame w l b s
  | .lineBreak w l => Sys2Proof.Machine.execLineBreak w l s
  | .breakEnd w l => Sys2Proof.Machine.execBreakEnd w l s
  | .replyBegin l => Sys2Proof.Machine.execReplyBegin l s
  | .replySent w l => Sys2Proof.Machine.execReplySent w l s
  | .transferFrameBegin l => Sys2Proof.Machine.execTransferFrameBegin l s
  | .transferFrameDelivered w l => Sys2Proof.Machine.execTransferFrameDelivered w l s
  | .streamFrameBegin l => Sys2Proof.Machine.execStreamFrameBegin l s
  | .streamFrameDelivered w l => Sys2Proof.Machine.execStreamFrameDelivered w l s
  | .unknownKind w l k t p => Sys2Proof.Machine.execUnknownKind w l k t p s
  | .readRecords w l t p => Sys2Proof.Machine.execReadRecords w l t p s
  | .stream w l t p => Sys2Proof.Machine.execStream w l t p s
  | .seek w l t p => Sys2Proof.Machine.execSeek w l t p s
  | .readStatus w l t p => Sys2Proof.Machine.execReadStatus w l t p s
  | .readNotice w l t p => Sys2Proof.Machine.execReadNotice w l t p s
  | .setNoticeMask w l t p => Sys2Proof.Machine.execSetNoticeMask w l t p s
  | .mark w l t p => Sys2Proof.Machine.execMark w l t p s
  | .readMark w l t p => Sys2Proof.Machine.execReadMark w l t p s
  | .setMarkLine w l t p => Sys2Proof.Machine.execSetMarkLine w l t p s
  | .labelNextSecond w l t p => Sys2Proof.Machine.execLabelNextSecond w l t p s
  | .setOffset w l t p => Sys2Proof.Machine.execSetOffset w l t p s
  | .openEdit w l t p => Sys2Proof.Machine.execOpenEdit w l t p s
  | .writeKnot w l t p => Sys2Proof.Machine.execWriteKnot w l t p s
  | .writeBand w l t p => Sys2Proof.Machine.execWriteBand w l t p s
  | .writeBias w l t p => Sys2Proof.Machine.execWriteBias w l t p s
  | .writeHoldoverRate w l t p => Sys2Proof.Machine.execWriteHoldoverRate w l t p s
  | .commit w l t p => Sys2Proof.Machine.execCommit w l t p s
  | .abandon w l t p => Sys2Proof.Machine.execAbandon w l t p s
  | .lockCalibration w l t p => Sys2Proof.Machine.execLockCalibration w l t p s
  | .readTable w l t p => Sys2Proof.Machine.execReadTable w l t p s
  | .setBaseline w l t p => Sys2Proof.Machine.execSetBaseline w l t p s
  | .byteReceived w l b => Sys2Proof.Machine.execByteReceived w l b s
  | .powerLoss w f => Sys2Proof.Machine.execPowerLoss w f s

end Sys2Proof.Machine
end

