-- ==== Sys2Proof/Safety.lean ====
section
/-! DEFINITION. What the statements speak of: the wait and the arrival a command of the queue stands for, the state of a
link that holds an answered command, and what holds of every state of the machine, block by block. -/

namespace Sys2Proof

/-! ## Commands -/

/-- The number of ticks a command asks to pass before its event, for the commands that carry one. -/
def Instr.wait : Instr → Option Nat
  | .powerOnReset => none
  | .resetRequest w => some w
  | .warmReset => none
  | .ordinaryBoundary => none
  | .epochOutEnd => none
  | .strobe _ _ _ _ => none
  | .midpointMark => none
  | .ppsEdge w => some w
  | .conversionEnd _ _ => none
  | .markLineEdge w => some w
  | .idleExpiry => none
  | .storeWriteEnd w _ => some w
  | .readyChange w _ _ => some w
  | .framingError w _ => some w
  | .interByteTimeout _ => none
  | .badFrame w _ _ => some w
  | .goodFrame w _ _ => some w
  | .lineBreak w _ => some w
  | .breakEnd w _ => some w
  | .replyBegin _ => none
  | .replySent w _ => some w
  | .transferFrameBegin _ => none
  | .transferFrameDelivered w _ => some w
  | .streamFrameBegin _ => none
  | .streamFrameDelivered w _ => some w
  | .unknownKind w _ _ _ _ => some w
  | .readRecords w _ _ _ => some w
  | .stream w _ _ _ => some w
  | .seek w _ _ _ => some w
  | .readStatus w _ _ _ => some w
  | .readNotice w _ _ _ => some w
  | .setNoticeMask w _ _ _ => some w
  | .mark w _ _ _ => some w
  | .readMark w _ _ _ => some w
  | .setMarkLine w _ _ _ => some w
  | .labelNextSecond w _ _ _ => some w
  | .setOffset w _ _ _ => some w
  | .openEdit w _ _ _ => some w
  | .writeKnot w _ _ _ => some w
  | .writeBand w _ _ _ => some w
  | .writeBias w _ _ _ => some w
  | .writeHoldoverRate w _ _ _ => some w
  | .commit w _ _ _ => some w
  | .abandon w _ _ _ => some w
  | .lockCalibration w _ _ _ => some w
  | .readTable w _ _ _ => some w
  | .setBaseline w _ _ _ => some w
  | .byteReceived w _ _ => some w
  | .powerLoss w _ => some w

open Sys2Proof.Machine in
/-- A station command of the table, by the wait, the link and the KIND, TAG and payload with which it reaches the link's
queue: the 21 commands of Table 8-3 and the row for a KIND that names none. -/
def Instr.arrival : Instr → Option (Nat × Link × Command)
  | .unknownKind w l k t p => if (Kind.ofByte k).isNone then some (w, l, ⟨k, t, p⟩) else none
  | .readRecords w l t p => some (w, l, ⟨0x10, t, p⟩)
  | .stream w l t p => some (w, l, ⟨0x11, t, p⟩)
  | .seek w l t p => some (w, l, ⟨0x12, t, p⟩)
  | .readStatus w l t p => some (w, l, ⟨0x20, t, p⟩)
  | .readNotice w l t p => some (w, l, ⟨0x21, t, p⟩)
  | .setNoticeMask w l t p => some (w, l, ⟨0x22, t, p⟩)
  | .mark w l t p => some (w, l, ⟨0x23, t, p⟩)
  | .readMark w l t p => some (w, l, ⟨0x24, t, p⟩)
  | .setMarkLine w l t p => some (w, l, ⟨0x25, t, p⟩)
  | .labelNextSecond w l t p => some (w, l, ⟨0x30, t, p⟩)
  | .setOffset w l t p => some (w, l, ⟨0x40, t, p⟩)
  | .openEdit w l t p => some (w, l, ⟨0x50, t, p⟩)
  | .writeKnot w l t p => some (w, l, ⟨0x51, t, p⟩)
  | .writeBand w l t p => some (w, l, ⟨0x52, t, p⟩)
  | .writeBias w l t p => some (w, l, ⟨0x53, t, p⟩)
  | .writeHoldoverRate w l t p => some (w, l, ⟨0x54, t, p⟩)
  | .commit w l t p => some (w, l, ⟨0x55, t, p⟩)
  | .abandon w l t p => some (w, l, ⟨0x56, t, p⟩)
  | .lockCalibration w l t p => some (w, l, ⟨0x57, t, p⟩)
  | .readTable w l t p => some (w, l, ⟨0x58, t, p⟩)
  | .setBaseline w l t p => some (w, l, ⟨0x59, t, p⟩)
  | .powerOnReset => none
  | .resetRequest _ => none
  | .warmReset => none
  | .ordinaryBoundary => none
  | .epochOutEnd => none
  | .strobe _ _ _ _ => none
  | .midpointMark => none
  | .ppsEdge _ => none
  | .conversionEnd _ _ => none
  | .markLineEdge _ => none
  | .idleExpiry => none
  | .storeWriteEnd _ _ => none
  | .readyChange _ _ _ => none
  | .framingError _ _ => none
  | .interByteTimeout _ => none
  | .badFrame _ _ _ => none
  | .goodFrame _ _ _ => none
  | .lineBreak _ _ => none
  | .breakEnd _ _ => none
  | .replyBegin _ => none
  | .replySent _ _ => none
  | .transferFrameBegin _ => none
  | .transferFrameDelivered _ _ => none
  | .streamFrameBegin _ => none
  | .streamFrameDelivered _ _ => none
  | .byteReceived _ _ _ => none
  | .powerLoss _ _ => none

end Sys2Proof

namespace Sys2Proof.Machine

/-! ## When a command takes place, and how it stands answered -/

/-- Power is applied, and w ticks can pass before anything falls due. -/
def State.mayWait (s : State) (w : Nat) : Prop := s.powered = true ∧ s.mayPass w = true

/-- A station command that reaches link l after w ticks is taken at once: the executing slot is empty (R152), no break is
on (R151) and no byte is undecided (R145). -/
def State.takesAt (s : State) (w : Nat) (l : Link) : Prop :=
  s.mayWait w ∧ (s.links.get l).executing = none ∧ s.hears l = true

/-- Link state with command c in the executing slot, answered with this status and payload (R153). -/
def LinkState.holding (c : Command) (st : Status) (payload : List Byte) (k : LinkState) : LinkState :=
  { k with executing := some ⟨c, some ⟨st, payload⟩, none⟩ }

/-- Command c stands answered in link l's executing slot, and nothing else differs from s. -/
def State.holding (s : State) (l : Link) (c : Command) (st : Status) (payload : List Byte) : State :=
  s.onLink l (LinkState.holding c st payload)

/-- Code bytes of an axis and of a row (Table 11-2). -/
def axisByte : Axis → Byte
  | .X => 0
  | .Y => 1
  | .Z => 2

def rowByte : RowName → Byte
  | .X => 0
  | .Y => 1
  | .Z => 2
  | .OSC => 3

/-! ## A boundary, ordinary or step -/

/-- What holds after a boundary that arrives in state a with this provisional Second Number: the length of the new
interval from y = y_disc + y_temp (R3, R11), the label (R15, R16), the pulse (R9), the samples (R61), the growth of U
(R31), the slot (R84, R98, R99), the STEP notice (R12), and nothing else. -/
structure BoundaryOutcome (a t : State) (isStep : Bool) (provisional : Word) : Prop where
  epoch : t.epoch =
    { tickPos := 0
      issued := false
      len := (10000000 + (a.epoch.acc + (a.disc.yDisc + (a.cal.active.table.osc.lookup a.thermTO).o)) / 100000
        + (if isStep then 0 else a.epoch.pendingAdj.getD 0)).toNat
      acc := (a.epoch.acc + (a.disc.yDisc + (a.cal.active.table.osc.lookup a.thermTO).o)) % 100000
      pendingAdj := none
      yTemp := (a.cal.active.table.osc.lookup a.thermTO).o
      sn := a.epoch.armed.getD provisional
      label := if a.epoch.armed.isSome then .labelled else a.epoch.label
      armed := none
      conflict := false
      epochOutLeft := 100000 }
  disc : t.disc =
    { a.disc with
      windowArrived := true
      u := if a.disc.clock = .holdover then min 1000000000 (a.disc.u + a.cal.active.h) else a.disc.u }
  thermTS : t.thermTS = { a.thermTS with conversion := some 200000 }
  thermTO : t.thermTO = { a.thermTO with conversion := some 200000 }
  cal : t.cal =
    { a.cal with
      oscVoid := (a.cal.active.table.osc.lookup a.thermTO).uncorrected
      oscClamp := (a.cal.active.table.osc.lookup a.thermTO).tempClamp }
  /-- A step boundary leaves one empty slot centred on itself, marked TIME-STEP. -/
  stepSlot : isStep = true → t.asm =
    { a.asm with slot := some ⟨true, t.epoch.sn, some t.epoch.label, true, decide (t.epoch.sn ≠ provisional),
        ⟨[], [], []⟩, false⟩ }
  /-- An ordinary boundary gives the slot whose centre is NEXT its number, label state and LABEL-STEP mark. -/
  ordinarySlot : isStep = false → ∀ sl, a.asm.slot = some sl → sl.arrived = false → t.asm =
    { a.asm with slot := some { sl with
        arrived := true, sn := t.epoch.sn, label := some t.epoch.label
        labelStep := decide (t.epoch.sn ≠ provisional) } }
  /-- It leaves every other assembler state alone. -/
  otherSlot : isStep = false → (∀ sl, a.asm.slot = some sl → sl.arrived = true) → t.asm = a.asm
  /-- Without a step and without a label step no notice is raised, else one STEP notice on all links. -/
  quiet : isStep = false → t.epoch.sn = provisional → t.links = a.links
  phaseStep : isStep = true → t.epoch.sn = provisional → t.links = a.links.map (LinkState.raise (.step .phase t.epoch.sn))
  labelStep : isStep = false → t.epoch.sn ≠ provisional → t.links = a.links.map (LinkState.raise (.step .label t.epoch.sn))
  bothSteps : isStep = true → t.epoch.sn ≠ provisional →
    t.links = a.links.map (LinkState.raise (.step .phaseAndLabel t.epoch.sn))
  rest : t.powered = a.powered ∧ t.axes = a.axes ∧ t.store = a.store ∧ t.ring = a.ring
    ∧ t.resetWaiting = a.resetWaiting ∧ t.samples = a.samples ∧ t.replaced = a.replaced
    ∧ t.earlier = a.earlier ∧ t.choices = a.choices ∧ t.pending = a.pending

/-! ## The Record Ring (R125, R126, R130) -/

/-- The sequence numbers of a list of records run without gap from `first`. -/
def runsFrom : Word → List SeqRecord → Bool
  | _, [] => true
  | first, q :: rest => decide (q.seq = first) && runsFrom (first + 1) rest

/-- R125 and R126: at most 4,096 records, their numbers without gap, and next sequence one past the newest. -/
structure Ring.Sound (r : Ring) : Prop where
  atMost : r.count ≤ 4096
  noGap : runsFrom r.oldest r.records = true
  nextFollows : r.next = r.oldest + BitVec.ofNat 32 r.count

/-- R130: each cursor lies between the oldest position and next sequence. -/
def State.CursorsBound (s : State) : Prop := ∀ l, s.ring.distance (s.links.get l).cursor ≤ s.ring.count

/-- The record that a frame on the line carries. -/
def LinkState.carried (k : LinkState) : Option SeqRecord :=
  match k.tx with
  | some ⟨.reply _, _⟩ => none
  | some ⟨.transfer _ q, _⟩ => some q
  | some ⟨.stream q, _⟩ => some q
  | none => none

/-- No frame on a line carries next sequence. A frame carries a record that was in the ring when it began, so it could
carry next sequence only after 2^32 − 1 appends during one frame, some 136 years (R126). -/
def State.FramesFresh (s : State) : Prop := ∀ l q, (s.links.get l).carried = some q → q.seq ≠ s.ring.next

/-! ## One station link (Tables 8-1, 9-1; R152, R155, R160, R165, R180) -/

/-- The receiver's partial frame by its state (Table 8-2): absent outside a frame; inside one its bytes, none of them too
many, and the CRC register over all of them but the received CRC (R143, R147, R148). -/
def Receiver.Sound (r : Receiver) : Prop :=
  match r.state, r.partialFrame with
  | .hunt, none => True
  | .sync2, none => True
  | .brk, none => True
  | .header, some b => b.length < 3 ∧ lenOf b ≤ 64 ∧ r.crc = crcOf b ∧ r.gap ≤ gapTicks
  | .payload, some b => 3 ≤ b.length ∧ b.length < 3 + lenOf b ∧ lenOf b ≤ 64 ∧ r.crc = crcOf b ∧ r.gap ≤ gapTicks
  | .check, some b => 3 + lenOf b ≤ b.length ∧ b.length < 5 + lenOf b ∧ lenOf b ≤ 64
      ∧ r.crc = crcOf (b.take (3 + lenOf b)) ∧ r.gap ≤ gapTicks
  | .hunt, some _ => False
  | .sync2, some _ => False
  | .brk, some _ => False
  | .header, none => False
  | .payload, none => False
  | .check, none => False

/-- A transfer in the executing slot belongs to READ RECORDS, asks for 1 to 16 records, has delivered fewer while it is
RUNNING, and has its reply built exactly when it has ENDED (R162, R164, R165). -/
def Executing.Sound (e : Executing) : Prop :=
  ∀ t, e.transfer = some t →
    e.command.kind = 0x10 ∧ 1 ≤ t.requested ∧ t.requested ≤ 16 ∧ t.delivered ≤ t.requested
      ∧ (t.phase = .running → t.delivered < t.requested ∧ e.reply = none)
      ∧ (t.phase = .ended → e.reply.isSome = true)

/-- What the frame on the line needs of the executing slot: a reply whose command is still there is built; a transfer
frame whose command is still there belongs to a RUNNING transfer. -/
def LinkState.LineSound (k : LinkState) : Prop :=
  ∀ t, k.tx = some t →
    match t.what with
    | .reply true => ∃ e, k.executing = some e ∧ e.reply.isSome = true
    | .transfer true _ => ∃ e tr, k.executing = some e ∧ e.transfer = some tr ∧ tr.phase = .running
    | .reply false => True
    | .transfer false _ => True
    | .stream _ => True

structure LinkState.Sound (k : LinkState) : Prop where
  receiver : k.rx.Sound
  /-- In BREAK no byte is held undecided (R145, R151). -/
  undecided : k.rx.state = .brk → k.rx.undecided = false
  executing : ∀ e, k.executing = some e → e.Sound
  line : k.LineSound
  /-- A command waits only behind one in execution (R152, R154). -/
  waitsBehind : k.executing = none → k.waiting = none
  /-- Counters stop at their greatest values (R155, R160, R180). -/
  counters : k.badFrames ≤ 65535 ∧ k.framingErrors ≤ 65535 ∧ k.timeouts ≤ 65535 ∧ k.breaks ≤ 65535
    ∧ k.displacedTotal ≤ 65535 ∧ k.displaced ≤ 255 ∧ k.ignored ≤ 255
  /-- The MARK entry is pending exactly while the latch is full, with the source of the capture held (R180). -/
  markEntry : k.notices.mark = k.latch.map (·.source)
  /-- The ignored count rises only while the latch is full (R182). -/
  ignoredZero : k.latch = none → k.ignored = 0
  /-- A GAP detail counts at least one record and stops at 2^32 − 1 (R131, R173). -/
  gapDetail : ∀ n, k.notices.gap = some n → 1 ≤ n ∧ n ≤ 4294967295
  /-- The mask holds the nine enables alone (R175). -/
  maskBits : k.mask &&& 0xFE00 = 0

def State.LinksSound (s : State) : Prop := ∀ l, (s.links.get l).Sound

/-! ## Calibration Unit and Calibration Store (R71, R108, R112, R117 to R120, R123) -/

/-- The edit is in COMMITTING. -/
def Edit.committingNow : Edit → Bool
  | .none => false
  | .editing _ _ _ => false
  | .committing _ _ _ => true

/-- A commit write is in flight. -/
def Store.writesCommit (st : Store) : Bool :=
  match st.inFlight with
  | none => false
  | some w => decide (w.kind = .commit)

structure State.CalSound (s : State) : Prop where
  /-- The active calibration, the shadow and the baselines hold only values within their ranges (R71). -/
  activeInRange : s.cal.active.inRange = true
  shadowInRange : ∀ sh, s.cal.edit.shadow = some sh → sh.inRange = true
  baselineInRange : PerAxis.allWithin 10000000 s.cal.baseline = true
  /-- No link holds the edit while the lock is set (R117). -/
  lockedNoEdit : s.cal.lock = true → s.cal.edit = .none
  /-- The idle timer of an edit lies within 0..1,200,000,000 (R108). -/
  idleBound : ∀ h sh idle, s.cal.edit = .editing h sh idle → idle ≤ 1200000000
  /-- COMMITTING lasts exactly while one commit write is waiting or in flight (R112 to R114). -/
  committingWrites : s.cal.edit.committingNow = (s.store.commitWaiting || s.store.writesCommit)
  oneCommit : (s.store.commitWaiting && s.store.writesCommit) = false
  /-- A write waits only for a write in flight or for a reset that is due (R119, R123). -/
  waitsFor : s.store.inFlight = none → s.store.commitWaiting = true ∨ s.store.baselinePending = true →
    s.resetWaiting = true
  /-- A write lasts at most 600,000 ticks (R119). -/
  writeBound : ∀ w, s.store.inFlight = some w → w.elapsed ≤ 600000

/-! ## Epoch Timer and Discipline Controller (Tables 1-1 and 2-1) -/

structure EpochTimer.Sound (e : EpochTimer) : Prop where
  /-- R3: the accumulator keeps the remainder of the division by 100,000. -/
  accLow : 0 ≤ e.acc
  accHigh : e.acc ≤ 99999
  lenLow : 9999470 ≤ e.len
  lenHigh : e.len ≤ 10000530
  position : e.tickPos ≤ e.len
  adjustment : ∀ v, e.pendingAdj = some v → -500 ≤ v ∧ v ≤ 500
  yTempLow : -1000000 ≤ e.yTemp
  yTempHigh : e.yTemp ≤ 1000000
  /-- A conflict leaves no label armed (R14). -/
  conflictNoLabel : e.conflict = true → e.armed = none
  /-- EPOCH OUT has what is left of the 100,000 ticks since the boundary (R9). -/
  epochOut : e.epochOutLeft = 100000 - e.tickPos

structure Discipline.Sound (d : Discipline) : Prop where
  yDiscLow : -2000000 ≤ d.yDisc
  yDiscHigh : d.yDisc ≤ 2000000
  uLow : 100 ≤ d.u
  uHigh : d.u ≤ 1000000000
  /-- R25, R38. -/
  freeU : d.clock = .free → d.u = 1000000000
  /-- R26. -/
  acquireU : d.clock = .acquire → d.u = 100000
  /-- R33: HOLDOVER and TRACK only after training, and FREE never again. -/
  trainedClock : d.trained = true → d.clock ≠ .free
  holdoverTrained : d.clock = .holdover → d.trained = true
  trackTrained : d.clock = .track → d.trained = true
  goodBound : d.good ≤ 16
  /-- ACQUIRE is left at the sixteenth accepted edge (R26). -/
  acquireGood : d.clock = .acquire → d.good ≤ 15
  outlierBound : d.outlierRun ≤ 3
  missingBound : d.missingRun ≤ 2
  /-- R25, R32: no window counts as missing in FREE and HOLDOVER. -/
  missingZero : d.clock = .free ∨ d.clock = .holdover → d.missingRun = 0
  /-- R21. -/
  phaseBound : ∀ p, d.lastPhase = some p → -5000265 ≤ p ∧ p ≤ 5000265
  spuriousBound : d.spurious ≤ 65535
  outliersBound : d.outliers ≤ 65535

structure State.ClockSound (s : State) : Prop where
  epoch : s.epoch.Sound
  disc : s.disc.Sound
  /-- The open window's boundary has arrived exactly while the interval's midpoint mark is still to come (R20). -/
  window : s.disc.windowArrived = s.epoch.ahead s.epoch.midpoint

/-! ## Field channels, thermometers and the Record Assembler (Tables 3-1, 3-2, 4-1, 4-2, 5-1) -/

/-- The ranges of Table 3-2. -/
structure Reading.Sound (r : Reading) : Prop where
  residualLow : -8388607 ≤ r.residual
  residualHigh : r.residual ≤ 8388607
  indexLow : -6 ≤ r.index
  indexHigh : r.index ≤ 6
  strobe : r.k ≤ 9

structure AxisChannel.Sound (c : AxisChannel) : Prop where
  indexLow : -6 ≤ c.index
  indexHigh : c.index ≤ 6
  settle : c.settle ≤ 3
  latest : ∀ r, c.latest = some r → r.Sound

/-- Table 4-2 with the ranges of Table 4-1. -/
structure Thermometer.Sound (t : Thermometer) : Prop where
  heldRange : ∀ v, t.held = some v → -6000 ≤ v ∧ v ≤ 6000
  noneIff : t.health = .none ↔ t.held = none
  goodFaults : t.health = .good → t.faults = 0
  heldFaults : t.health = .held → 1 ≤ t.faults ∧ t.faults ≤ 300
  staleFaults : t.health = .stale → 301 ≤ t.faults
  faultBound : t.faults ≤ 65535
  conversion : ∀ n, t.conversion = some n → n ≤ 200000

/-- How many readings each list of the open slot holds, by the next strobe of the interval (none when all ten have been
issued); a slot stands open exactly outside the span between strobe 4 and strobe 5 (R82, R83, R85, R99). -/
def slotFits (next : Option Nat) (slot : Option Slot) (n : Nat) : Bool :=
  match slot, next with
  | none, some k => decide (k = 5)
  | none, none => false
  | some sl, some k => if sl.arrived then decide (k ≤ 4) && (decide (n = k) || decide (n = 5 + k)) else decide (6 ≤ k) && decide (n + 5 = k)
  | some sl, none => !sl.arrived && decide (n = 5)

/-- The readings of one axis list: their number fits, and each lies within the ranges of Table 3-2. -/
def State.listSound (s : State) (a : Axis) : Prop :=
  let l := (s.asm.slot.map (fun sl => sl.readings.get a)).getD []
  slotFits s.epoch.nextStrobe s.asm.slot l.length = true ∧ ∀ r ∈ l, r.Sound

structure State.FieldSound (s : State) : Prop where
  axes : ∀ a, (s.axes.get a).Sound
  thermTS : s.thermTS.Sound
  thermTO : s.thermTO.Sound
  lists : ∀ a, s.listSound a
  /-- The readings that a strobe of this instant replaced lie within the ranges of Table 3-2 too. -/
  replaced : ∀ old, s.replaced = some old → ∀ a r, old.readings.get a = some r → r.Sound
  /-- The SET OFFSETs of this instant found a channel within Table 3-1 and set an index of R54. -/
  earlier : ∀ a, ∀ t ∈ s.earlier.get a, t.before.Sound ∧ ∀ m, t.change = .fixed m → -6 ≤ m ∧ m ≤ 6
  /-- A slot's label state is absent while its centre is NEXT (Table 5-1). -/
  slotLabel : ∀ sl, s.asm.slot = some sl → sl.label.isSome = sl.arrived

/-! ## Field values (R90) -/

/-- R90: every field value of the records in the ring and of the captures in the latches lies within ±112,392,493 pT. -/
structure State.ValuesBounded (s : State) : Prop where
  records : ∀ q ∈ s.ring.records, ∀ x v, (q.record.axes.get x).value = some v → -112392493 ≤ v ∧ v ≤ 112392493
  latches : ∀ l c, (s.links.get l).latch = some c → ∀ x v, (c.axes.get x).value = some v → -112392493 ≤ v ∧ v ≤ 112392493

end Sys2Proof.Machine
end

