-- ==== Sys2Proof/Certificates/Slice0/Obligations.lean ====
section
/-! DEFINITION. The statements about the MV-3 for the provers: what each command does and leaves unchanged, where it
completes, and what holds of every state. -/

open Sys2Proof
open Sys2Proof.Machine

/-! ## The queue of the model, and time -/

/-- A step takes the command at the front of the queue: it is exec of that command on the state with the queue's rest
(the model's own queue, 95_what_each_step_holds.md and assumption log 1). -/
def Obligations.StepRunsTheFrontCommand : Prop :=
  ∀ (c : Instr) (rest : List Instr) (s : State),
    step { s with pending := c :: rest } = exec c { s with pending := rest }

/-- n ticks that pass count on the tick position (R1), and count down the EPOCH OUT remaining (R9), the conversions (R61)
and an idle timer in EDITING (R108); a write in flight ages (R119), the gap of a receiver within a frame grows (R149), and
the ticks since each input was last high count on to 2, enough for an edge (R19, R178); nothing else of what the manual gives the part changes. Ticks
add up: m ticks and then n ticks are m + n ticks. n
ticks can pass exactly when nothing is due before they have passed: the interval's boundary, a strobe or midpoint mark
still to come (R1, R5, R6), the end of a conversion (R61), the end of the idle time (R108), the latest end of a store write
(R119), an inter-byte timeout whose gap still runs (R149), and, at once, a frame that can begin (R157) and a requested
reset with no store write in flight (R18, R123). The model's choice: what is due holds time back (assumption log 2), a
reset takes effect before time passes (log 6), the 50 ms of R149 are 500,000 ticks (log 9), a byte is held undecided
(log 21), replaced readings and SET OFFSETs of an instant are kept for it alone (logs 12 and 20), and with an empty queue a step lets one tick pass, unless something is due at this tick (log 5). -/
def Obligations.TimePassesTickByTick : Prop :=
  ∀ s : State,
    (s.advance 0 = s
      ∧ ∀ n : Nat, 0 < n → s.advance n =
        { s with
          epoch := { s.epoch with tickPos := s.epoch.tickPos + n, issued := false, epochOutLeft := s.epoch.epochOutLeft - n }
          thermTS := { s.thermTS with conversion := s.thermTS.conversion.map (· - n) }
          thermTO := { s.thermTO with conversion := s.thermTO.conversion.map (· - n) }
          cal := { s.cal with edit := match s.cal.edit with
            | .editing h sh idle => .editing h sh (idle - n)
            | .committing h sh broken => .committing h sh broken
            | .none => .none }
          store := { s.store with inFlight := s.store.inFlight.map (fun wr => { wr with elapsed := wr.elapsed + n }) }
          links := s.links.map (fun k => { k with rx := { k.rx with gap :=
            if (k.rx.state = .header ∨ k.rx.state = .payload ∨ k.rx.state = .check) ∧ k.rx.undecided = false
            then k.rx.gap + n else k.rx.gap } })
          samples := ⟨min 2 (s.samples.pps + n), min 2 (s.samples.mark + n), min 2 (s.samples.reset + n)⟩
          replaced := none
          earlier := ⟨[], [], []⟩ })
      ∧ (∀ m n : Nat, (s.advance m).advance n = s.advance (m + n))
      ∧ (∀ n : Nat,
        let e := s.epoch
        let toCome (pos : Nat) : Prop := e.tickPos < pos ∨ (e.tickPos = pos ∧ e.issued = false)
        let inFrame (r : Receiver) : Prop := r.state = .header ∨ r.state = .payload ∨ r.state = .check
        let canBegin (k : LinkState) : Prop :=
          (∃ x r, k.executing = some x ∧ x.reply = some r)
            ∨ (k.cursor ≠ s.ring.next ∧ (k.stream = true
              ∨ ∃ x t, k.executing = some x ∧ x.transfer = some t ∧ t.phase = .running ∧ t.delivered < t.requested))
        s.mayPass n = true ↔
          n ≤ e.len - e.tickPos
          ∧ (∀ k < 10, toCome (500000 + 1000000 * k) → n ≤ 500000 + 1000000 * k - e.tickPos)
          ∧ (toCome (e.len / 2) → n ≤ e.len / 2 - e.tickPos)
          ∧ (∀ d, s.thermTS.conversion = some d → n ≤ d) ∧ (∀ d, s.thermTO.conversion = some d → n ≤ d)
          ∧ (∀ h sh idle, s.cal.edit = .editing h sh idle → n ≤ idle)
          ∧ (∀ wr, s.store.inFlight = some wr → n ≤ 600000 - wr.elapsed)
          ∧ (∀ l, let k := s.links.get l
              (inFrame k.rx → k.rx.undecided = false → n ≤ 500000 - k.rx.gap)
                ∧ (k.ready = true → k.tx = none → canBegin k → n = 0))
          ∧ (s.resetWaiting = true → s.store.inFlight = none → n = 0))
      ∧ (s.pending = [] →
        (s.mayWait 1 → step s = .next (s.advance 1)) ∧ (¬ s.mayWait 1 → step s = .next s))

/-- Every command, in every state, answers a next state and leaves the queue alone: nothing the manual describes stops
the part. The model's choice (assumption log 2 and 8): without power only POWER_ON_RESET acts, and a command whose wait
passes something that is due changes nothing. -/
def Obligations.EveryCommandAnswersANextState : Prop :=
  ∀ (c : Instr) (s : State),
    (∃ t, exec c s = .next t ∧ t.pending = s.pending)
      ∧ (s.powered = false → c ≠ .powerOnReset → exec c s = .next s)
      ∧ (∀ n, c.wait = some n → s.mayPass n = false → exec c s = .next s)

/-! ## Resets and power -/

/-- POWER_ON_RESET puts every block into its power-on state (Tables 1-7, 2-4, 3-3, 4-3, 5-8, 6-5, 8-5, 10-4; R138), with
the calibration the store image loads (R121), every stream tag 0 (R172) and the last sample of each edge input taken as
high (R18, R19, R178), OSC-VOID set and OSC-CLAMP clear (R78). The model's choice: the READY inputs keep their levels
(assumption log 3), a power-on with no POWER_LOSS before it loads the image as it stands, also with a store write in flight
(log 8), a receiver's CRC register and gap stand at 0xFFFF and 0 (log 17) with no byte undecided (log 21), no reading or
SET OFFSET before this instant stays in reach and the count of free choices goes on (logs 12 and 20), and edge inputs are
held as ticks since high, an edge coming at tick position 1 at the earliest (log 13). -/
def Obligations.PowerOnResetSetsEveryBlock : Prop :=
  ∀ s : State,
    let axis : AxisChannel := ⟨0, .auto, 0, none⟩
    let thermometer : Thermometer := ⟨some 200000, none, none, .none, 0⟩
    let img := s.store.image.loaded
    let link (ready : Bool) : LinkState :=
      { ready := ready, rx := ⟨.hunt, none, 0xFFFF, 0, false⟩, executing := none, waiting := none, displaced := 0, tx := none
        badFrames := 0, framingErrors := 0, timeouts := 0, breaks := 0, displacedTotal := 0, cursor := 0
        stream := false, streamTag := 0, notices := ⟨none, none, none, none, none, none, false, none, false⟩, mask := 0
        latch := none, ignored := 0, markLine := false }
    exec .powerOnReset s = .next
      { powered := true
        epoch := ⟨0, false, 10000000, 0, none, 0, 0, .unlabelled, none, false, 100000⟩
        disc := ⟨.free, 0, false, 0, 0, 0, false, none, 1000000000, true, false, 0, 0⟩
        axes := ⟨axis, axis, axis⟩
        thermTS := thermometer
        thermTO := thermometer
        cal := ⟨img.cal, img.version, img.configDefault, img.baseline, .none, false, false, true, false⟩
        store := ⟨s.store.image, none, false, false⟩
        asm := ⟨some ⟨true, 0, some .unlabelled, false, false, ⟨[], [], []⟩, false⟩, img.version, false⟩
        ring := ⟨[], 0⟩
        links := ⟨link s.links.a.ready, link s.links.b.ready, link s.links.c.ready⟩
        resetWaiting := false
        samples := ⟨1, 1, 1⟩
        replaced := none
        earlier := ⟨[], [], []⟩
        choices := s.choices
        pending := s.pending }

/-- A rising edge of RESET requests a warm reset; without a low sample at the tick before there is no edge (R18).
WARM_RESET with no store write in flight puts every block into its warm-reset state (Tables 1-7, 2-4, 3-3, 4-3, 5-8,
6-5, 8-5, 10-4) with the calibration the store image loads (R121), and keeps the ring and every cursor (R139) and the
sampling of the inputs (R19, R178); OSC-VOID is set and OSC-CLAMP clear (R78). One that meets a write in flight does not
take effect (R123). Without a recognised request WARM_RESET changes nothing, and a request taken is used up (R18). The
model's choice: the reset takes effect by a row of its own (assumption log 6); the READY inputs keep their levels (log 3); a
receiver's CRC register and gap stand at 0xFFFF and 0 (log 17) with no byte undecided (log 21); no reading or SET OFFSET before this instant stays in reach and the count of free choices goes
on (logs 12 and 20). -/
def Obligations.WarmResetKeepsRingAndCursors : Prop :=
  (∀ (s : State) (w : Nat), s.mayWait w →
    let a := s.advance w
    (a.samples.reset = 2 →
      exec (.resetRequest w) s = .next
        { a with resetWaiting := true, samples := { a.samples with reset := 0 } })
      ∧ (a.samples.reset < 2 → exec (.resetRequest w) s = .next s))
  ∧ ∀ s : State, s.powered = true →
    let axis : AxisChannel := ⟨0, .auto, 0, none⟩
    let thermometer : Thermometer := ⟨some 200000, none, none, .none, 0⟩
    let img := s.store.image.loaded
    let link (k : LinkState) : LinkState :=
      { ready := k.ready, rx := ⟨.hunt, none, 0xFFFF, 0, false⟩, executing := none, waiting := none, displaced := 0
        tx := none, badFrames := 0, framingErrors := 0, timeouts := 0, breaks := 0, displacedTotal := 0
        cursor := k.cursor, stream := false, streamTag := 0
        notices := ⟨none, none, none, none, none, none, false, none, false⟩, mask := 0
        latch := none, ignored := 0, markLine := false }
    (s.resetWaiting = true → s.store.inFlight = none →
      exec .warmReset s = .next
        { powered := true
          epoch := ⟨0, false, 10000000, 0, none, 0, 0, .unlabelled, none, false, 100000⟩
          disc := ⟨.free, 0, false, 0, 0, 0, false, none, 1000000000, true, false, 0, 0⟩
          axes := ⟨axis, axis, axis⟩
          thermTS := thermometer
          thermTO := thermometer
          cal := ⟨img.cal, img.version, img.configDefault, img.baseline, .none, false, false, true, false⟩
          store := ⟨s.store.image, none, false, false⟩
          asm := ⟨some ⟨true, 0, some .unlabelled, false, false, ⟨[], [], []⟩, false⟩, img.version, false⟩
          ring := s.ring
          links := ⟨link s.links.a, link s.links.b, link s.links.c⟩
          resetWaiting := false
          samples := s.samples
          replaced := none
          earlier := ⟨[], [], []⟩
          choices := s.choices
          pending := s.pending })
      ∧ (s.resetWaiting = false ∨ s.store.inFlight ≠ none → exec .warmReset s = .next s)

/-- Power lost during a store write leaves the image before the write, the image of the write, or one whose CRC fails
(R123); with no write in flight the image stays. A reset loads an image (R71, R79, R121) when its CRC is good and every
item lies within its range, and else the default calibration of Table 4-9 with CONFIG-DEFAULT set. The model's choice: the
row names the image found, and all other state stands as it was until power returns (assumption log 8); an image holds
whether its CRC and its mode codes are good, not the CRC itself (log 4). -/
def Obligations.StoreImageSurvivesOrGivesTheDefaults : Prop :=
  (∀ (s : State) (w : Nat) (found : LossImage), s.mayWait w →
    let a := s.advance w
    (a.store.inFlight = none → exec (.powerLoss w found) s = .next { a with powered := false })
      ∧ (∀ wr, a.store.inFlight = some wr → ∃ img : StoreImage,
          exec (.powerLoss w found) s = .next
            { a with powered := false, store := { a.store with inFlight := none, image := img } }
          ∧ (found = .before → img = a.store.image)
          ∧ (found = .written → img.contents = wr.contents ∧ img.crcGood = true ∧ img.modesGood = true)
          ∧ (found = .crcFails → img.crcGood = false)))
  ∧ ∀ img : StoreImage,
    let good := img.crcGood = true ∧ img.modesGood = true ∧ img.contents.cal.h ≤ 1000
      ∧ (∀ a, -80000000 ≤ img.contents.cal.bias.get a ∧ img.contents.cal.bias.get a ≤ 80000000)
      ∧ (∀ a, -10000000 ≤ img.contents.baseline.get a ∧ img.contents.baseline.get a ≤ 10000000)
      ∧ (∀ row, ∀ k ∈ (img.contents.cal.table.row row).knots.toList,
          -1000000 ≤ k.g ∧ k.g ≤ 1000000 ∧ -1000000 ≤ k.o ∧ k.o ≤ 1000000 ∧ (row = .OSC → k.g = 0))
    (good → img.loaded = img.contents)
      ∧ (¬ good → img.loaded.version = 0 ∧ img.loaded.configDefault = true ∧ img.loaded.baseline = ⟨0, 0, 0⟩
          ∧ img.loaded.cal.bias = ⟨0, 0, 0⟩ ∧ img.loaded.cal.h = 5
          ∧ ∀ row, (∀ k ∈ (img.loaded.cal.table.row row).knots.toList, k = ⟨0, 0⟩)
              ∧ ∀ m ∈ (img.loaded.cal.table.row row).bands.toList, m = .interp)

/-! ## The Epoch Timer -/

/-- The ordinary boundary arrives when the tick position reaches L: the new interval bears the Second Number after the
present one, unless a label is applied, and all other boundary work is done (R1, R3, R8, R9, R12, R15, R31, R61, R84). -/
def Obligations.OrdinaryBoundaryBeginsTheNextSecond : Prop :=
  ∀ s : State, s.mayWait (s.epoch.len - s.epoch.tickPos) →
    ∃ t, exec .ordinaryBoundary s = .next t
      ∧ BoundaryOutcome (s.advance (s.epoch.len - s.epoch.tickPos)) t false (s.epoch.sn + 1)

/-- R3: the accumulator keeps A + y less 100,000 times its floored quotient q, and L is 10,000,000 + q plus the pending
adjustment if one is present, within 9,999,470..10,000,530. -/
def Obligations.LengthFormedFromFrequencyAndAdjustment : Prop :=
  ∀ s : State, s.mayWait (s.epoch.len - s.epoch.tickPos) →
    s.epoch.Sound → s.disc.Sound → s.cal.active.inRange = true →
    ∃ t q, exec .ordinaryBoundary s = .next t
      ∧ -3000000 ≤ s.disc.yDisc + t.epoch.yTemp ∧ s.disc.yDisc + t.epoch.yTemp ≤ 3000000
      ∧ t.epoch.acc = s.epoch.acc + (s.disc.yDisc + t.epoch.yTemp) - 100000 * q
      ∧ 0 ≤ t.epoch.acc ∧ t.epoch.acc ≤ 99999 ∧ -30 ≤ q ∧ q ≤ 30
      ∧ (t.epoch.len : Int) = 10000000 + q + s.epoch.pendingAdj.getD 0
      ∧ t.epoch.pendingAdj = none
      ∧ 9999470 ≤ t.epoch.len ∧ t.epoch.len ≤ 10000530

/-- The EPOCH OUT pulse that a boundary starts ends when its remaining count has run out, and nothing else changes then; an
output already released is left alone (R9). An EDITING edit whose idle timer reaches 0 expires: its shadow is discarded,
the edit is NONE, and EDIT-EXPIRED is raised on the former holder's link alone; nothing else changes, and the timer runs
in EDITING alone (R108). -/
def Obligations.RunningCountsReachTheirEnd : Prop :=
  ∀ s : State,
    (s.mayWait s.epoch.epochOutLeft → 0 < s.epoch.epochOutLeft →
      exec .epochOutEnd s = .next (s.advance s.epoch.epochOutLeft)
        ∧ (s.advance s.epoch.epochOutLeft).epoch.epochOutLeft = 0)
      ∧ (s.epoch.epochOutLeft = 0 → exec .epochOutEnd s = .next s)
      ∧ (∀ h sh idle, s.cal.edit = .editing h sh idle → s.mayWait idle →
        let a := s.advance idle
        exec .idleExpiry s = .next
          { a with
            cal := { a.cal with edit := .none }
            links := a.links.modify h (fun k => { k with notices := { k.notices with editExpired := true } }) })
      ∧ (s.cal.edit = .none → exec .idleExpiry s = .next s)
      ∧ (∀ h sh b, s.cal.edit = .committing h sh b → exec .idleExpiry s = .next s)

/-! ## Strobes, readings and records -/

/-- STROBE k, the next of the interval, gives each axis its reading and makes its settle and step decisions in the order
of R44: clamp and SAT (R42), SETTLE (R47), the automatic step (R48) and LIMIT (R49) in AUTO alone (R52). The clock, the
thermometers, the calibration and the store are unchanged, and so are ring and links but at strobe 4. After the tenth
strobe nothing is left to issue. A SET OFFSET of the instant of strobe 4 may come between the readings and the completion;
the axis clauses leave that case to StrobeFourCompletesTheRecord (R86, assumption log 20). That the choice counter
`choices` counts on at strobe 4 and that `earlier` stays are the model's form of R86 (assumption log 20). -/
def Obligations.StrobeTakesOneReadingPerAxis : Prop :=
  ∀ (s : State) (codeX codeY codeZ : Int) (d : Bool),
    (s.epoch.nextStrobe = none → exec (.strobe codeX codeY codeZ d) s = .next s)
      ∧ ∀ k, s.epoch.nextStrobe = some k → s.mayWait (500000 + 1000000 * k - s.epoch.tickPos) →
        let a := s.advance (500000 + 1000000 * k - s.epoch.tickPos)
        let code (x : Axis) : Int := match x with
          | .X => codeX
          | .Y => codeY
          | .Z => codeZ
        ∃ t, exec (.strobe codeX codeY codeZ d) s = .next t
          ∧ (∀ x, k ≠ 4 ∨ a.earlier.get x = [] →
            let c := s.axes.get x
            let r := max (-8388607) (min 8388607 (code x))
            let settled := c.settle = 0
            let decides := c.mode = .auto ∧ settled
            let up := decides ∧ 6000000 < r
            let down := decides ∧ r < -6000000
            (t.axes.get x).mode = c.mode
              ∧ (t.axes.get x).latest = some
                { axis := x, sn := s.epoch.sn, k := k, residual := r, index := c.index
                  sat := decide (r = 8388607 ∨ r = -8388607), settle := decide (0 < c.settle)
                  limit := decide ((up ∧ 6 ≤ c.index) ∨ (down ∧ c.index ≤ -6)), disturb := d }
              ∧ (up ∧ c.index < 6 → (t.axes.get x).index = c.index + 1 ∧ (t.axes.get x).settle = 3)
              ∧ (down ∧ -6 < c.index → (t.axes.get x).index = c.index - 1 ∧ (t.axes.get x).settle = 3)
              ∧ (¬ (up ∧ c.index < 6) → ¬ (down ∧ -6 < c.index) →
                  (t.axes.get x).index = c.index ∧ (t.axes.get x).settle = c.settle - 1))
          ∧ t.epoch = { a.epoch with issued := true }
          ∧ t.powered = a.powered ∧ t.disc = a.disc ∧ t.thermTS = a.thermTS ∧ t.thermTO = a.thermTO
          ∧ t.cal = a.cal ∧ t.store = a.store
          ∧ t.resetWaiting = a.resetWaiting ∧ t.samples = a.samples ∧ t.pending = a.pending
          ∧ t.choices = (if k = 4 then a.choices + 1 else a.choices) ∧ t.earlier = a.earlier
          ∧ (k ≠ 4 → t.ring = a.ring ∧ t.links = a.links)

/-- The readings of strobe k in the slot: strobe 5 opens the slot of the coming boundary with them (R82), strobes 6 to 9
and 0 to 3 append them to the slot they belong to (R83). -/
def Obligations.StrobeFillsTheOpenSlot : Prop :=
  ∀ (s : State) (codeX codeY codeZ : Int) (d : Bool) (k : Nat),
    s.epoch.nextStrobe = some k → s.mayWait (500000 + 1000000 * k - s.epoch.tickPos) → k ≠ 4 →
    ∃ t, exec (.strobe codeX codeY codeZ d) s = .next t
      ∧ (k = 5 → t.asm =
          { s.asm with slot := some ⟨false, s.epoch.sn + 1, none, false, false,
              ⟨(t.axes.get .X).latest.toList, (t.axes.get .Y).latest.toList, (t.axes.get .Z).latest.toList⟩, d⟩ })
      ∧ (∀ sl, s.asm.slot = some sl → (k < 4 ∧ sl.arrived = true) ∨ (5 < k ∧ sl.arrived = false) → t.asm =
          { s.asm with slot := some { sl with
              readings := ⟨sl.readings.x ++ (t.axes.get .X).latest.toList, sl.readings.y ++ (t.axes.get .Y).latest.toList,
                sl.readings.z ++ (t.axes.get .Z).latest.toList⟩
              disturb := sl.disturb || d } })

/-- At strobe 4 the slot centred on the interval's boundary completes (R85): one record is appended, the slot closes, the
version last used becomes the record's (R93) and the baseline change indication is cleared (R95). The record's fields
are those of R86 to R96, read at that instant. With no slot, or none centred on the interval's boundary, no record is
formed: the ring stays, and a slot centred on the next boundary stays too (R85). SET OFFSETs of the same instant, the
latest of them, may also come between the reading of their axis and the completion (R56, R86): the strobe then works on the
channel as it stood before them, and each acts after it in their order, so that the index for "n at completion" is theirs
and a reply not yet begun reports the axis after the strobe and its own command. A link that no late SET OFFSET names
changes by the append alone. That SET OFFSETs of an instant stay in reach until a tick passes, and that a free value chooses how
many are late, is the model's form of R86 (assumption log 20). -/
def Obligations.StrobeFourCompletesTheRecord : Prop :=
  let onlyReplies (a : State) (k k' : LinkState) : Prop :=
    ∃ x, k' = { k with executing := x } ∧ (a.earlier = ⟨[], [], []⟩ → x = k.executing)
  (∀ (s : State) (codeX codeY codeZ : Int) (d : Bool) (sl : Slot) (lab : LabelState),
    s.epoch.nextStrobe = some 4 → s.mayWait (4500000 - s.epoch.tickPos) → s.asm.slot = some sl →
    sl.arrived = true → sl.label = some lab →
    ∃ t record, exec (.strobe codeX codeY codeZ d) s = .next t
      ∧ t.asm = ⟨none, s.cal.version, false⟩
      ∧ t.ring = ((s.advance (4500000 - s.epoch.tickPos)).appendRecord record).ring
      ∧ (∀ l, onlyReplies (s.advance (4500000 - s.epoch.tickPos))
          (((s.advance (4500000 - s.epoch.tickPos)).appendRecord record).links.get l) (t.links.get l))
      ∧ record.sn = sl.sn ∧ record.label = lab ∧ record.clock = s.disc.clock ∧ record.u = s.disc.u
      ∧ record.version = s.cal.version
      ∧ record.tsHealth = s.thermTS.health ∧ record.toHealth = s.thermTO.health
      ∧ (s.thermTS.health = .none → record.tsValue = none) ∧ (s.thermTS.health ≠ .none → record.tsValue = s.thermTS.held)
      ∧ (s.thermTO.health = .none → record.toValue = none) ∧ (s.thermTO.health ≠ .none → record.toValue = s.thermTO.held)
      ∧ record.timeStep = sl.timeStep ∧ record.labelStep = sl.labelStep
      ∧ record.disturbed = (sl.disturb || d)
      ∧ record.calibChanged = decide (s.cal.version ≠ s.asm.versionLast)
      ∧ record.baselineChanged = s.asm.baselineChange ∧ record.configDefault = s.cal.configDefault
      ∧ ∀ x,
        let row := match x with
          | .X => s.cal.active.table.x
          | .Y => s.cal.active.table.y
          | .Z => s.cal.active.table.z
        let look := row.lookup s.thermTS
        let list := sl.readings.get x ++ (t.axes.get x).latest.toList
        let valid := list.filter (fun r => !r.sat && !r.settle)
        let sum := (valid.map (fun r => s.cal.active.bias.get x + r.index * 2000000 + r.residual)).sum
        let m := roundDiv sum valid.length
        let out := record.axes.get x
        (valid = [] → out.value = none)
          ∧ (valid ≠ [] → out.value = some (m + roundDiv (m * look.g) 100000000 + look.o + s.cal.baseline.get x))
          ∧ out.count = list.length ∧ out.valid = valid.length ∧ out.index = (t.axes.get x).index
          ∧ out.satSeen = list.any (fun r => r.sat) ∧ out.limit = list.any (fun r => r.limit)
          ∧ (out.stepped = true ↔ ∃ r ∈ list, ∃ q ∈ list, r.index ≠ q.index)
          ∧ out.degraded = decide (1 ≤ valid.length ∧ valid.length ≤ 5)
          ∧ out.uncorrected = look.uncorrected ∧ out.tempClamp = look.tempClamp)
  ∧ (∀ (s : State) (codeX codeY codeZ : Int) (d : Bool),
    s.epoch.nextStrobe = some 4 → s.mayWait (4500000 - s.epoch.tickPos) →
    let a := s.advance (4500000 - s.epoch.tickPos)
    (∀ sl, s.asm.slot = some sl → sl.arrived = false) →
    ∃ t, exec (.strobe codeX codeY codeZ d) s = .next t ∧ t.asm = a.asm ∧ t.ring = a.ring
      ∧ ∀ l, onlyReplies a (a.links.get l) (t.links.get l))
  ∧ (∀ (s : State) (codeX codeY codeZ : Int) (d : Bool),
    s.epoch.nextStrobe = some 4 → s.mayWait (4500000 - s.epoch.tickPos) →
    let a := s.advance (4500000 - s.epoch.tickPos)
    ∃ t, ∃ lates : PerAxis (List Setting), exec (.strobe codeX codeY codeZ d) s = .next t
      ∧ (∀ l, (∀ x, ∀ q ∈ lates.get x, q.link ≠ l) → (t.links.get l).executing = (a.links.get l).executing)
      ∧ ∀ x, ∃ rest, let late := lates.get x
        a.earlier.get x = late ++ rest
        ∧ (∀ q ∈ late, ∀ bytes, (a.links.get q.link).tx ≠ some ⟨.reply true, bytes⟩)
        ∧ ∀ t0, exec (.strobe codeX codeY codeZ d)
            { s with
              earlier := ⟨[], [], []⟩
              axes := s.axes.modify x (fun c => (late.getLast?.map (fun q => q.before)).getD c) } = .next t0 →
          let after (qs : List Setting) : AxisChannel := qs.foldr (fun q c =>
            match q.change with
            | .auto => { c with mode := .auto }
            | .fixed m => { c with mode := .fixed, index := m, settle := 3 }
            | .refused => c) (t0.axes.get x)
          t.axes.get x = after late
            ∧ ∀ pre q suf e r, late = pre ++ q :: suf → (∀ p ∈ pre, p.link ≠ q.link) →
              (a.links.get q.link).executing = some e → e.reply = some r → r.payload ≠ [] →
              e.command.kind = 0x40 → u8At e.command.payload 0 = axisByte x →
              (t.links.get q.link).executing = some { e with reply := some { r with payload :=
                [(after (q :: suf)).mode.code, BitVec.ofInt 8 (after (q :: suf)).index,
                  BitVec.ofNat 8 (after (q :: suf)).settle] } })
  ∧ ∀ (s : State) (n : Nat), 0 < n → (s.advance n).earlier = ⟨[], [], []⟩

/-- The append of a record (R126, R128, R129, R131): it takes next sequence, which counts on; a full ring first loses its
oldest record, and a link whose cursor named that record is moved to the record after it and loses one record more in
its GAP notice. Nothing else changes. -/
def Obligations.AppendPlacesTheRecordUnderNextSequence : Prop :=
  ∀ (s : State) (record : Record),
    (s.ring.count < 4096 →
      s.appendRecord record =
        { s with ring := ⟨s.ring.records ++ [⟨s.ring.next, record⟩], s.ring.next + 1⟩ })
      ∧ (4096 ≤ s.ring.count → ∀ q rest, s.ring.records = q :: rest →
          ∃ links : PerLink LinkState,
            s.appendRecord record =
              { s with ring := ⟨rest ++ [⟨s.ring.next, record⟩], s.ring.next + 1⟩, links := links }
            ∧ ∀ l, let k := s.links.get l
              (k.cursor ≠ q.seq → links.get l = k)
                ∧ (k.cursor = q.seq → links.get l =
                    { k with
                      cursor := q.seq + 1
                      notices := { k.notices with gap := some (min 4294967295 (k.notices.gap.getD 0 + 1)) } }))

/-- Rounding to nearest with ties away from zero (00_scope.md, Arithmetic): the result is never more than half a unit
off, and at exactly half a unit it lies further from zero than the quotient. -/
def Obligations.RoundingIsToNearestTiesAway : Prop :=
  ∀ a b : Int, 0 < b →
    2 * (b * roundDiv a b - a) ≤ b ∧ 2 * (a - b * roundDiv a b) ≤ b
      ∧ (2 * (b * roundDiv a b - a) = b → 0 ≤ a) ∧ (2 * (a - b * roundDiv a b) = b → a ≤ 0)
      ∧ roundDiv (-a) b = -roundDiv a b

/-- A lookup (R73 to R76): with health NONE both terms are 0 and the result is uncorrected but not clamped; otherwise the
held value, clamped to the table's span, selects a band, and the band's mode gives the terms. Every term a lookup yields
lies within the range of the terms of its row (R71, R74). -/
def Obligations.LookupFollowsTheBandMode : Prop :=
  (∀ (r : Row) (t : Thermometer),
    (t.health = .none → r.lookup t = ⟨0, 0, false, true⟩)
      ∧ ∀ v, t.health ≠ .none → t.held = some v →
        let c := max (-4000) (min 4000 v)
        let clamped := decide (v < -4000 ∨ 4000 < v)
        ∃ b : Nat, ∃ hb : b < 16,
          (c < 4000 → (500 * b : Int) ≤ c + 4000 ∧ c + 4000 < 500 * (b + 1)) ∧ (c = 4000 → b = 15)
          ∧ (r.bands[b] = .void → r.lookup t = ⟨0, 0, clamped, true⟩)
          ∧ (r.bands[b] = .hold → r.lookup t = ⟨r.knots[b].g, r.knots[b].o, clamped, false⟩)
          ∧ (r.bands[b] = .interp → r.lookup t =
              ⟨r.knots[b].g + roundDiv ((r.knots[b + 1].g - r.knots[b].g) * (c + 4000 - 500 * b)) 500,
               r.knots[b].o + roundDiv ((r.knots[b + 1].o - r.knots[b].o) * (c + 4000 - 500 * b)) 500, clamped, false⟩))
  ∧ ∀ (r : Row) (t : Thermometer) (bound : Int), 0 ≤ bound →
    (∀ k ∈ r.knots.toList, -bound ≤ k.g ∧ k.g ≤ bound ∧ -bound ≤ k.o ∧ k.o ≤ bound) →
    -bound ≤ (r.lookup t).g ∧ (r.lookup t).g ≤ bound ∧ -bound ≤ (r.lookup t).o ∧ (r.lookup t).o ≤ bound

/-- R90: every field value of a second record and of a mark capture lies within ±112,392,493 pT. Every record that a strobe
appends and every capture that is formed keep the bound, from every state whose calibration and field are within their
ranges; and so every step keeps it for all records in the ring and all captures in the latches. -/
def Obligations.FieldValuesStayWithinTheBound : Prop :=
  (∀ (s : State) (codeX codeY codeZ : Int) (d : Bool) (k : Nat), s.CalSound → s.FieldSound →
    s.epoch.nextStrobe = some k → s.mayWait (500000 + 1000000 * k - s.epoch.tickPos) →
    ∃ t, exec (.strobe codeX codeY codeZ d) s = .next t
      ∧ ∀ q ∈ t.ring.records, q ∈ s.ring.records
        ∨ ∀ x v, (q.record.axes.get x).value = some v → -112392493 ≤ v ∧ v ≤ 112392493)
  ∧ (∀ s : State, s.CalSound → s.FieldSound →
    ∀ x v, (s.captureAxis x).value = some v → -112392493 ≤ v ∧ v ≤ 112392493)
  ∧ ∀ s t : State, s.ValuesBounded → (s.powered = true → s.CalSound) → s.FieldSound → step s = .next t → t.ValuesBounded

/-! ## The Discipline Controller -/

/-- The midpoint mark closes the open capture window and opens the next (R20). A window with a measured edge ends without
effect; one without is a missing PPS (R23), which has no effect in FREE and HOLDOVER (R25, R32), counts in TRACK (R30)
and in ACQUIRE (R27), and at the third in a run takes TRACK and a trained ACQUIRE to HOLDOVER and an untrained ACQUIRE to
FREE, with a CLOCK notice on all links. An interval has one mark: past its position, or with the instant there issued, none
is left, and the command changes nothing (R6). -/
def Obligations.MidpointMarkClosesTheWindow : Prop :=
  (∀ s : State, s.epoch.len / 2 < s.epoch.tickPos ∨ (s.epoch.len / 2 = s.epoch.tickPos ∧ s.epoch.issued = true) →
    exec .midpointMark s = .next s)
  ∧ ∀ s : State,
    let n := s.epoch.len / 2 - s.epoch.tickPos
    let a := s.advance n
    s.mayWait n → a.epoch.ahead (a.epoch.len / 2) = true →
    let epoch := { a.epoch with issued := true }
    let opened (d : Discipline) : Discipline := { d with windowArrived := false, windowMeasured := false }
    let quiet (d : Discipline) : State := { a with epoch := epoch, disc := opened d }
    let changed (d : Discipline) : State :=
      { a with epoch := epoch, disc := opened d, links := a.links.map (LinkState.raise (.clock d.clock)) }
    let d := a.disc
    ((d.windowMeasured = true ∨ d.clock = .free ∨ d.clock = .holdover) → exec .midpointMark s = .next (quiet d))
      ∧ (d.windowMeasured = false → d.clock = .track →
          (d.missingRun < 2 → exec .midpointMark s = .next (quiet { d with missingRun := d.missingRun + 1 }))
          ∧ (2 ≤ d.missingRun →
              exec .midpointMark s = .next (changed { d with clock := .holdover, outlierRun := 0, missingRun := 0 })))
      ∧ (d.windowMeasured = false → d.clock = .acquire →
          (d.missingRun < 2 →
              exec .midpointMark s = .next (quiet { d with good := 0, missingRun := d.missingRun + 1 }))
          ∧ (2 ≤ d.missingRun → d.trained = true →
              exec .midpointMark s = .next
                (changed { d with clock := .holdover, good := 0, outlierRun := 0, missingRun := 0 }))
          ∧ (2 ≤ d.missingRun → d.trained = false →
              exec .midpointMark s = .next
                (changed { d with clock := .free, good := 0, outlierRun := 0, missingRun := 0, u := 1000000000 })))

/-- An edge in a window that already holds a measured edge is spurious: it is counted, up to 65,535, and nothing else
changes (R22). An input that was not found low at the tick before gives no edge (R19). An outlier of TRACK that is not the
fourth in a run is counted and ignored: no update is made, and the missing run is kept (R29). -/
def Obligations.SpuriousAndOutlierEdgesAreCounted : Prop :=
  ∀ (s : State) (w : Nat), s.mayWait w →
    let a := s.advance w
    (a.samples.pps = 2 → a.disc.windowMeasured = true →
      exec (.ppsEdge w) s = .next
        { a with
          samples := { a.samples with pps := 0 }
          disc := { a.disc with spurious := min 65535 (a.disc.spurious + 1) } })
      ∧ (a.samples.pps < 2 → exec (.ppsEdge w) s = .next s)
      ∧ (∀ p : Int, a.samples.pps = 2 → a.disc.windowMeasured = false →
        p = (if a.disc.windowArrived then (a.epoch.tickPos : Int) else (a.epoch.tickPos : Int) - a.epoch.len) →
        a.disc.clock = .track → 1000 < p.natAbs → a.disc.outlierRun < 3 →
        exec (.ppsEdge w) s = .next
          { a with
            samples := { a.samples with pps := 0 }
            disc := { a.disc with
              windowMeasured := true
              lastPhase := some p
              outlierRun := a.disc.outlierRun + 1
              outliers := min 65535 (a.disc.outliers + 1) } })

/-- An accepted edge (R26, R28, R32, R34, R35): |p| ≤ 50 in ACQUIRE with full gain, |p| ≤ 1000 in TRACK and HOLDOVER with
a sixteenth of the frequency and half of the phase. The sixteenth accepted edge of ACQUIRE, and an accepted edge in
HOLDOVER, enter TRACK with a CLOCK notice on all links. -/
def Obligations.AcceptedEdgeSteersTheClock : Prop :=
  ∀ (s : State) (w : Nat) (p : Int),
    let a := s.advance w
    s.mayWait w → a.samples.pps = 2 → a.disc.windowMeasured = false →
    p = (if a.disc.windowArrived then (a.epoch.tickPos : Int) else (a.epoch.tickPos : Int) - a.epoch.len) →
    let steer (inc adj : Int) (d : Discipline) : State :=
      { a with
        samples := { a.samples with pps := 0 }
        epoch := { a.epoch with pendingAdj := some adj }
        disc := { d with
          windowMeasured := true
          lastPhase := some p
          yDisc := max (-2000000) (min 2000000 (a.disc.yDisc + inc))
          freqLimit := decide (a.disc.yDisc + inc < -2000000 ∨ 2000000 < a.disc.yDisc + inc) } }
    let noticed (t : State) : State := { t with links := t.links.map (LinkState.raise (.clock .track)) }
    let u := max 100 (100 * p.natAbs)
    let d := a.disc
    (d.clock = .acquire → p.natAbs ≤ 50 → d.good < 15 →
        exec (.ppsEdge w) s = .next (steer (p * 100000) p { d with good := d.good + 1, missingRun := 0 }))
      ∧ (d.clock = .acquire → p.natAbs ≤ 50 → 15 ≤ d.good →
        exec (.ppsEdge w) s = .next
          (noticed (steer (p * 100000) p
            { d with clock := .track, good := d.good + 1, missingRun := 0, outlierRun := 0, trained := true, u := u })))
      ∧ (d.clock = .track → p.natAbs ≤ 1000 →
        exec (.ppsEdge w) s = .next
          (steer (roundDiv (p * 100000) 16) (roundDiv p 2) { d with u := u, outlierRun := 0, missingRun := 0 }))
      ∧ (d.clock = .holdover → p.natAbs ≤ 1000 →
        exec (.ppsEdge w) s = .next
          (noticed (steer (roundDiv (p * 100000) 16) (roundDiv p 2)
            { d with clock := .track, u := u, outlierRun := 0, missingRun := 0, trained := true })))

/-- An edge that calls for a phase step (R25, R27, R29, R32): the first of FREE, one beyond 50 ticks in ACQUIRE, the
fourth outlier of a run in TRACK, one beyond 1000 ticks in HOLDOVER. The step boundary takes the next Second Number for
p below 0 and repeats that of the interval in progress otherwise (R10, R36), applies an armed label, marks the rebuilt slot
(R15, R99) and leaves out the pending adjustment (R11); the clock is then in ACQUIRE, with a CLOCK notice where it was not
before (R24, R37). An edge of phase 0 taken before the ordinary boundary of its own tick ends the interval that boundary would
have ended (R101); that the step then repeats the number of that interval is DEDUCED from R10 (assumption log 10). -/
def Obligations.LargePhaseStepsTheTimeScale : Prop :=
  ∀ (s : State) (w : Nat) (p : Int),
    let a := s.advance w
    s.mayWait w → a.samples.pps = 2 → a.disc.windowMeasured = false →
    p = (if a.disc.windowArrived then (a.epoch.tickPos : Int) else (a.epoch.tickPos : Int) - a.epoch.len) →
    let stepped (u t : State) : Prop := BoundaryOutcome u t true (if p < 0 then a.epoch.sn + 1 else a.epoch.sn)
    let entered (d : Discipline) : State :=
      { a with
        samples := { a.samples with pps := 0 }
        disc := { d with
          windowMeasured := true, lastPhase := some p, clock := .acquire, good := 0, outlierRun := 0, missingRun := 0
          u := 100000 }
        links := a.links.map (LinkState.raise (.clock .acquire)) }
    let stays : State :=
      { a with
        samples := { a.samples with pps := 0 }
        disc := { a.disc with windowMeasured := true, lastPhase := some p, good := 0, missingRun := 0 } }
    ((a.disc.clock = .free ∨ (a.disc.clock = .holdover ∧ 1000 < p.natAbs)) →
        ∃ t, exec (.ppsEdge w) s = .next t ∧ stepped (entered a.disc) t)
      ∧ (a.disc.clock = .track → 1000 < p.natAbs → 3 ≤ a.disc.outlierRun →
        ∃ t, exec (.ppsEdge w) s = .next t
          ∧ stepped (entered { a.disc with outliers := min 65535 (a.disc.outliers + 1) }) t)
      ∧ (a.disc.clock = .acquire → 50 < p.natAbs →
        ∃ t, exec (.ppsEdge w) s = .next t ∧ stepped stays t)

/-! ## Thermometers, marks, the edit's idle time and the store -/

/-- A conversion's end (R62 to R64, R66): a value within ±6000 becomes the held value and makes the channel GOOD; any
other result is a fault, counted up to 65,535, after which the health is NONE without a held value, HELD up to 300
faults and STALE beyond. A change of health raises TEMP on all links; the other channel and every other block are
unchanged. With no conversion in progress nothing happens. -/
def Obligations.ConversionEndIsJudged : Prop :=
  ∀ (s : State) (ch : Channel) (r : ConvResult),
    let chan (u : State) : Thermometer := match ch with
      | .TS => u.thermTS
      | .TO => u.thermTO
    let set (u : State) (t : Thermometer) : State := match ch with
      | .TS => { u with thermTS := t }
      | .TO => { u with thermTO := t }
    ((chan s).conversion = none → exec (.conversionEnd ch r) s = .next s)
      ∧ ∀ n, (chan s).conversion = some n → s.mayWait n →
        let a := s.advance n
        ∃ t : Thermometer,
          (t.health = (chan s).health → exec (.conversionEnd ch r) s = .next (set a t))
          ∧ (t.health ≠ (chan s).health → exec (.conversionEnd ch r) s = .next
              { set a t with links := a.links.map (LinkState.raise (.temp ch t.health)) })
          ∧ t.conversion = none ∧ t.raw = some r
          ∧ (∀ v, r = .value v → -6000 ≤ v → v ≤ 6000 → t.held = some v ∧ t.health = .good ∧ t.faults = 0)
          ∧ ((r = .noConversion ∨ ∃ v, r = .value v ∧ (v < -6000 ∨ 6000 < v)) →
              t.held = (chan s).held ∧ t.faults = min 65535 ((chan s).faults + 1)
              ∧ (t.held = none → t.health = .none)
              ∧ (t.held ≠ none → t.faults ≤ 300 → t.health = .held)
              ∧ (t.held ≠ none → 300 < t.faults → t.health = .stale))

/-- A rising edge of MARK (R177, R178, R180): one capture of source LINE, offered to every link whose line-mark enable is
on. An empty latch takes it and raises MARK; a full one counts it, up to 255. No other state changes. With the boundary due
and not yet taken it names the last tick position of the interval that ends (R177, Table 1-1). Its axis values are
those of the single-reading correction (R104) of the latest reading, or, at the very instant of a strobe, of the latest
reading or the one it replaced (R46): an axis without a reading has no value and no flag; otherwise the value is
u + round(u·G / 10^8) + O and the baseline, with the reading's SAT and SETTLE and the lookup's two flags. Once something
that the capture holds has changed since the strobe, the mark comes after both: it finds the latest readings (R177). That a
strobe leaves the readings it replaced in reach until a tick passes, that a later mark finds none older than an earlier one,
and that a free value chooses, is the model's form of R46 (assumption log 12). -/
def Obligations.MarkLineEdgeFillsTheEnabledLatches : Prop :=
  (∀ (s : State) (w : Nat), s.mayWait w →
    let a := s.advance w
    (a.samples.mark < 2 → exec (.markLineEdge w) s = .next s)
      ∧ (a.samples.mark = 2 → ∃ links : PerLink LinkState, ∃ c : Capture,
        exec (.markLineEdge w) s = .next
          { a with
            samples := { a.samples with mark := 0 }
            links := links
            choices := a.choices + 1
            replaced := a.replaced.map (fun old =>
              { old with readings := ⟨a.captureReading .X, a.captureReading .Y, a.captureReading .Z⟩ }) }
        ∧ c.source = .line ∧ c.sn = a.epoch.sn ∧ c.label = a.epoch.label ∧ c.clock = a.disc.clock ∧ c.u = a.disc.u
        ∧ (a.epoch.tickPos < a.epoch.len → c.tick = a.epoch.tickPos)
        ∧ (a.epoch.len ≤ a.epoch.tickPos → c.tick = a.epoch.len - 1) ∧ c.tsHealth = a.thermTS.health
        ∧ (a.thermTS.health = .none → c.tsValue = none) ∧ (a.thermTS.health ≠ .none → c.tsValue = a.thermTS.held)
        ∧ (∀ x, c.axes.get x = a.captureAxis x)
        ∧ ∀ l, let k := a.links.get l
          (k.markLine = false → links.get l = k)
            ∧ (k.markLine = true → k.latch = none →
                links.get l = { k with latch := some c, notices := { k.notices with mark := some .line } })
            ∧ (k.markLine = true → ∀ held, k.latch = some held →
                links.get l = { k with ignored := min 255 (k.ignored + 1) })))
  ∧ (∀ (s : State) (x : Axis),
    let row := match x with
      | .X => s.cal.active.table.x
      | .Y => s.cal.active.table.y
      | .Z => s.cal.active.table.z
    let look := row.lookup s.thermTS
    (s.replaced = none → s.captureReading x = (s.axes.get x).latest)
      ∧ (∀ old, s.replaced = some old → s.markContext = old.context →
          s.captureReading x = (s.axes.get x).latest ∨ s.captureReading x = old.readings.get x)
      ∧ (∀ old, s.replaced = some old → s.markContext ≠ old.context → s.captureReading x = (s.axes.get x).latest)
      ∧ s.markContext =
        { sn := s.epoch.sn, tick := min s.epoch.tickPos (s.epoch.len - 1), label := s.epoch.label
          clock := s.disc.clock, u := s.disc.u
          tsValue := if s.thermTS.health = .none then none else s.thermTS.held, tsHealth := s.thermTS.health
          active := s.cal.active, baseline := s.cal.baseline }
      ∧ (s.captureReading x = none → s.captureAxis x = ⟨none, false, false, false, false⟩)
      ∧ ∀ r, s.captureReading x = some r →
        let u := s.cal.active.bias.get x + r.index * 2000000 + r.residual
        s.captureAxis x =
          ⟨some (u + roundDiv (u * look.g) 100000000 + look.o + s.cal.baseline.get x), r.sat, r.settle, look.tempClamp,
            look.uncorrected⟩)
  ∧ ∀ (s : State) (codeX codeY codeZ : Int) (d : Bool) (k n : Nat),
    s.epoch.nextStrobe = some k → s.mayWait (500000 + 1000000 * k - s.epoch.tickPos) →
    ∃ t, exec (.strobe codeX codeY codeZ d) s = .next t
      ∧ t.replaced = some ⟨⟨s.axes.x.latest, s.axes.y.latest, s.axes.z.latest⟩, t.markContext⟩
      ∧ (0 < n → (t.advance n).replaced = none)

/-- A baseline write ends 200,000 to 600,000 ticks after it started (R119): success replaces the image and clears
STORE-STALE, a fault keeps the image and sets it; the write waiting then starts, the commit before the baseline, unless a
reset waits (R120, R123). The commit's image holds the shadow, the version after the active one, CONFIG-DEFAULT clear and
the baselines of that instant (R106, R112). Edit and active calibration are unchanged. With no write in flight, or outside
these ticks, no write ends, of whichever kind: the command changes nothing. -/
def Obligations.BaselineWriteEndStartsTheNextWrite : Prop :=
  (∀ (s : State) (w : Nat) (success : Bool),
    (∀ wr, (s.advance w).store.inFlight = some wr → wr.elapsed < 200000 ∨ 600000 < wr.elapsed) →
    exec (.storeWriteEnd w success) s = .next s)
  ∧ ∀ (s : State) (w : Nat) (success : Bool) (wr : StoreWrite), s.mayWait w →
    let a := s.advance w
    a.store.inFlight = some wr → wr.kind = .baseline → 200000 ≤ wr.elapsed → wr.elapsed ≤ 600000 →
    ∃ store : Store,
      exec (.storeWriteEnd w success) s = .next { a with store := store, cal := { a.cal with storeStale := !success } }
      ∧ store.image = (if success then ⟨wr.contents, true, true⟩ else a.store.image)
      ∧ (a.resetWaiting = true → store.inFlight = none ∧ store.commitWaiting = a.store.commitWaiting
          ∧ store.baselinePending = a.store.baselinePending)
      ∧ (a.resetWaiting = false → a.store.commitWaiting = true →
          (∃ c, store.inFlight = some ⟨.commit, c, 0⟩ ∧ c.baseline = a.cal.baseline ∧ c.configDefault = false
            ∧ c.version = (if a.cal.version = 0xFFFF then 1 else a.cal.version + 1)
            ∧ (∀ sh, a.cal.edit.shadow = some sh → c.cal = sh))
          ∧ store.commitWaiting = false ∧ store.baselinePending = a.store.baselinePending)
      ∧ (a.resetWaiting = false → a.store.commitWaiting = false → a.store.baselinePending = true →
          store.inFlight = some ⟨.baseline, ⟨a.cal.active, a.cal.version, a.cal.configDefault, a.cal.baseline⟩, 0⟩
          ∧ store.baselinePending = false ∧ store.commitWaiting = false)
      ∧ (a.resetWaiting = false → a.store.commitWaiting = false → a.store.baselinePending = false →
          store.inFlight = none ∧ store.commitWaiting = false ∧ store.baselinePending = false)

/-- The end of a commit write (no commit waits behind one: CalSound.oneCommit). Success makes the shadow active with the
image's version, clears CONFIG-DEFAULT, ends the edit and raises CALIB on all links (R113); a fault changes no active
value and returns to EDITING with the shadow and a full idle timer (R114), or, after a break on the holder's link, ends
the edit (R116). A COMMIT still in execution is answered. A baseline write pending behind it then starts with the values
active after the end (R119, R120, Table 6-6); while a reset waits nothing is chosen and it stays pending (R123). Before
200,000 ticks from its start, or after 600,000, a commit write does not end, and the command changes nothing (R119). -/
def Obligations.CommitWriteEndDecidesTheEdit : Prop :=
  (∀ (s : State) (w : Nat) (success : Bool) (wr : StoreWrite),
    (s.advance w).store.inFlight = some wr → wr.kind = .commit → wr.elapsed < 200000 ∨ 600000 < wr.elapsed →
    exec (.storeWriteEnd w success) s = .next s)
  ∧ ∀ (s : State) (w : Nat) (success broken : Bool) (wr : StoreWrite) (h : Link) (sh : CalSet), s.mayWait w →
    let a := s.advance w
    a.store.inFlight = some wr → wr.kind = .commit → 200000 ≤ wr.elapsed → wr.elapsed ≤ 600000 →
    a.cal.edit = .committing h sh broken → a.store.commitWaiting = false →
    let answered (st : Status) (v : Half) (k : LinkState) : LinkState :=
      { k with executing := k.executing.map (fun e =>
          if e.command.kind = 0x55 ∧ e.reply = none then { e with reply := some ⟨st, be16 v⟩ } else e) }
    let next (img : StoreImage) (c : StoreContents) : Store :=
      if a.store.baselinePending = true ∧ a.resetWaiting = false then
        { a.store with inFlight := some ⟨.baseline, c, 0⟩, baselinePending := false, image := img }
      else { a.store with inFlight := none, image := img }
    let kept : StoreContents := ⟨a.cal.active, a.cal.version, a.cal.configDefault, a.cal.baseline⟩
    let ended : CalUnit := { a.cal with edit := .none, storeStale := !success }
    (success = true →
        let links := a.links.map (LinkState.raise (.calib wr.contents.version))
        exec (.storeWriteEnd w success) s = .next
          { a with
            store := next ⟨wr.contents, true, true⟩ ⟨sh, wr.contents.version, false, a.cal.baseline⟩
            cal := { ended with active := sh, version := wr.contents.version, configDefault := false }
            links := if broken then links else links.modify h (answered .ok wr.contents.version) })
      ∧ (success = false → broken = false →
        exec (.storeWriteEnd w success) s = .next
          { a with
            store := next a.store.image kept
            cal := { ended with edit := .editing h sh 1200000000 }
            links := a.links.modify h (answered .storeFault a.cal.version) })
      ∧ (success = false → broken = true →
        exec (.storeWriteEnd w success) s = .next { a with store := next a.store.image kept, cal := ended })

/-! ## The lines and the receiver of a station link -/

/-- A framing error (R145), an inter-byte timeout 500,000 ticks after the last byte of a frame (R149; the number is
assumption log 9) and a bad frame (R147, R148) each drop the partial frame, return the receiver to HUNT and add one to a
counter of their own, up to 65,535. In BREAK no byte is judged, and outside a frame there is no timeout; a byte whose
spacing stop bit is held undecided (R145) stops the gap, and no timeout comes while it is (assumption log 21). -/
def Obligations.BrokenFramesAreDroppedAndCounted : Prop :=
  ∀ (s : State) (w : Nat) (l : Link) (b : Byte),
    let hunt (k : LinkState) : Receiver :=
      { k.rx with state := .hunt, partialFrame := none, gap := 0, undecided := false }
    let a := s.advance w
    let rx := (s.links.get l).rx
    (s.mayWait w → rx.state ≠ .brk → exec (.framingError w l) s = .next
        (a.onLink l (fun k => { k with rx := hunt k, framingErrors := min 65535 (k.framingErrors + 1) })))
      ∧ (s.mayWait w → rx.state = .brk → exec (.framingError w l) s = .next s)
      ∧ (s.mayWait (500000 - rx.gap) → rx.undecided = false →
          rx.state = .header ∨ rx.state = .payload ∨ rx.state = .check →
          exec (.interByteTimeout l) s = .next ((s.advance (500000 - rx.gap)).onLink l
            (fun k => { k with rx := hunt k, timeouts := min 65535 (k.timeouts + 1) })))
      ∧ (rx.state = .hunt ∨ rx.state = .sync2 ∨ rx.state = .brk ∨ rx.undecided = true →
          exec (.interByteTimeout l) s = .next s)
      ∧ (s.mayWait w → rx.undecided = false →
          (rx.state = .header ∧ rx.partialFrame = some [] ∧ 64 < b.toNat)
            ∨ (∃ len kind tag rest hi, rx.state = .check ∧ rx.partialFrame = some (len :: kind :: tag :: (rest ++ [hi]))
                ∧ rest.length = len.toNat ∧ hi ++ b ≠ rx.crc) →
          exec (.badFrame w l b) s = .next
            (a.onLink l (fun k => { k with rx := hunt k, badFrames := min 65535 (k.badFrames + 1) })))

/-- A byte (R146 to R148): the synchronising pair clears the CRC register and starts a partial frame;
inside the frame each byte enters the partial frame, and all but the received CRC enter the register. Only the receiver
changes; in BREAK no byte is taken (R151). A byte whose stop bit is spacing reaches no state's rule: it is held undecided,
with the partial frame kept, and no further byte comes until a framing error or a break decides it (R145). The row with
a spacing stop bit is the model's choice (assumption log 21). A byte that ends a frame, a LEN above 64 (R147) or the second
CRC byte (R148), drops it as bad or hands its command over, just as BAD_FRAME and GOOD_FRAME with that byte do. -/
def Obligations.ByteMovesTheReceiver : Prop :=
  ∀ (s : State) (w : Nat) (l : Link) (b : Byte), s.mayWait w →
    let rx := ((s.advance w).links.get l).rx
    let go (r : Receiver) : Host.Outcome State Fault Refusal :=
      .next ((s.advance w).onLink l (fun k => { k with rx := r }))
    let dropped : Host.Outcome State Fault Refusal :=
      .next ((s.advance w).onLink l (fun k =>
        { k with
          rx := { k.rx with state := .hunt, partialFrame := none, gap := 0, undecided := false }
          badFrames := min 65535 (k.badFrames + 1) }))
    let taken := exec (.byteReceived w l (.marking b)) s
    (rx.state = .brk ∨ rx.undecided = true → taken = .next s ∧ exec (.byteReceived w l .spacing) s = .next s)
      ∧ (rx.state ≠ .brk → rx.undecided = false → exec (.byteReceived w l .spacing) s = go { rx with undecided := true })
      ∧ (rx.undecided = false →
        (rx.state = .hunt → b ≠ 0xC3 → taken = go rx)
        ∧ (rx.state = .hunt → b = 0xC3 → taken = go { rx with state := .sync2 })
        ∧ (rx.state = .sync2 → b = 0x3C → taken = go ⟨.header, some [], 0xFFFF, 0, false⟩)
        ∧ (rx.state = .sync2 → b = 0xC3 → taken = go rx)
        ∧ (rx.state = .sync2 → b ≠ 0x3C → b ≠ 0xC3 → taken = go { rx with state := .hunt })
        ∧ (rx.state = .header → rx.partialFrame = some [] → b.toNat ≤ 64 →
            taken = go ⟨.header, some [b], crcByte rx.crc b, 0, false⟩)
        ∧ (∀ len, rx.state = .header → rx.partialFrame = some [len] →
            taken = go ⟨.header, some [len, b], crcByte rx.crc b, 0, false⟩)
        ∧ (∀ len kind, rx.state = .header → rx.partialFrame = some [len, kind] →
            taken = go ⟨if len = 0 then .check else .payload, some [len, kind, b], crcByte rx.crc b, 0, false⟩)
        ∧ (∀ len kind tag rest, rx.state = .payload → rx.partialFrame = some (len :: kind :: tag :: rest) →
            rest.length < len.toNat →
            taken = go ⟨if rest.length + 1 < len.toNat then .payload else .check,
              some (len :: kind :: tag :: (rest ++ [b])), crcByte rx.crc b, 0, false⟩)
        ∧ (∀ len kind tag rest, rx.state = .check → rx.partialFrame = some (len :: kind :: tag :: rest) →
            rest.length = len.toNat →
            taken = go { rx with partialFrame := some (len :: kind :: tag :: (rest ++ [b])), gap := 0 })
        ∧ (rx.state = .header → rx.partialFrame = some [] → 64 < b.toNat →
            taken = dropped ∧ exec (.badFrame w l b) s = dropped)
        ∧ (∀ len kind tag rest hi, rx.state = .check → rx.partialFrame = some (len :: kind :: tag :: (rest ++ [hi])) →
            rest.length = len.toNat →
            (hi ++ b ≠ rx.crc → taken = dropped ∧ exec (.badFrame w l b) s = dropped)
              ∧ (hi ++ b = rx.crc → taken = exec (.goodFrame w l b) s)))

/-- A frame whose received CRC equals the register is good (R143, R148): the receiver returns to HUNT, and its command
reaches the queue exactly as the station command of that KIND, TAG and payload does (R152). A byte that ends no such frame
hands nothing over: with a received CRC that differs, before the second CRC byte, outside CHECK, or while a byte is
undecided, GOOD_FRAME changes nothing. Nor does BAD_FRAME where the CRC matches. -/
def Obligations.GoodFrameHandsItsCommandToTheQueue : Prop :=
  (∀ (s : State) (w : Nat) (l : Link) (b : Byte),
    let rx := (s.links.get l).rx
    (rx.state ≠ .check ∨ rx.undecided = true → exec (.goodFrame w l b) s = .next s)
      ∧ ∀ len kind tag rest, rx.partialFrame = some (len :: kind :: tag :: rest) →
        (rx.state = .check → rest.length = len.toNat → exec (.goodFrame w l b) s = .next s)
          ∧ ∀ payload hi, rest = payload ++ [hi] → payload.length = len.toNat → rx.state = .check →
            (hi ++ b ≠ rx.crc → exec (.goodFrame w l b) s = .next s)
              ∧ (hi ++ b = rx.crc → exec (.badFrame w l b) s = .next s))
  ∧ ∀ (s : State) (w : Nat) (l : Link) (len kind tag hi lo : Byte) (payload : List Byte) (i : Instr),
    let rx := (s.links.get l).rx
    s.mayWait w → rx.undecided = false → rx.state = .check → rx.partialFrame = some (len :: kind :: tag :: (payload ++ [hi])) →
    payload.length = len.toNat → hi ++ lo = rx.crc → i.arrival = some (0, l, ⟨kind, tag, payload⟩) →
    ∃ t, exec (.goodFrame w l lo) s = .next t
      ∧ exec i ((s.advance w).onLink l
          (fun k => { k with rx := { k.rx with state := .hunt, partialFrame := none, gap := 0, undecided := false } })) = .next t

/-- The CRC of R143: the register starts at 0xFFFF, each byte enters most significant bit first through the polynomial
x^16 + x^12 + x^5 + 1, and a frame ends with the register over the bytes from LEN on, high byte first. -/
def Obligations.FramesEndWithTheirCrc : Prop :=
  (crcOf [] = 0xFFFF)
    ∧ (∀ (bytes : List Byte) (b : Byte), crcOf (bytes ++ [b]) = crcByte (crcOf bytes) b)
    ∧ (∀ (c : Half) (b : Byte), ∃ f : Nat → Half, f 0 = c ∧ crcByte c b = f 8
        ∧ ∀ i, i < 8 → f (i + 1) = (f i <<< 1) ^^^ (if (f i).getLsbD 15 ^^ b.getLsbD (7 - i) then 0x1021 else 0))
    ∧ crcOf [0x31, 0x32, 0x33, 0x34, 0x35, 0x36, 0x37, 0x38, 0x39] = 0x29B1
    ∧ ∀ body : List Byte, ∃ hi lo : Byte, hi ++ lo = crcOf body ∧ frameOf body = 0xC3 :: 0x3C :: (body ++ [hi, lo])

/-- A break (R150, R172, R186) discards the partial frame, empties both slots, sets the stream off and the displaced
count to 0, counts itself, and abandons an EDITING edit held through the link; a COMMITTING edit goes on without its
reply (R116). Cursor, stream tag, notices, mask, latch, line-mark enable and the other counters are kept, and so is a frame
on the line, with its bytes and the record it captured: a reply or a transfer frame goes on without its command (R150,
R168), a stream frame as it was. The other links are untouched. When the break ends the receiver hunts again and nothing
else changes (R151). -/
def Obligations.BreakClearsTheLinksConversation : Prop :=
  ∀ (s : State) (w : Nat) (l : Link), s.mayWait w →
    let a := s.advance w
    let rx := (s.links.get l).rx
    (rx.state ≠ .brk → ∃ (edit : Edit) (line : Option Sending),
        exec (.lineBreak w l) s = .next
          { a with
            cal := { a.cal with edit := edit }
            links := a.links.modify l (fun k =>
              { k with
                rx := { k.rx with state := .brk, partialFrame := none, gap := 0, undecided := false }
                executing := none, waiting := none, stream := false, displaced := 0
                breaks := min 65535 (k.breaks + 1), tx := line }) }
        ∧ ((a.links.get l).tx = none → line = none)
        ∧ (∀ owned bytes, (a.links.get l).tx = some ⟨.reply owned, bytes⟩ → line = some ⟨.reply false, bytes⟩)
        ∧ (∀ owned q bytes, (a.links.get l).tx = some ⟨.transfer owned q, bytes⟩ →
            line = some ⟨.transfer false q, bytes⟩)
        ∧ (∀ q bytes, (a.links.get l).tx = some ⟨.stream q, bytes⟩ → line = some ⟨.stream q, bytes⟩)
        ∧ (∀ sh idle, a.cal.edit = .editing l sh idle → edit = .none)
        ∧ (∀ h sh idle, h ≠ l → a.cal.edit = .editing h sh idle → edit = a.cal.edit)
        ∧ (∀ sh b, a.cal.edit = .committing l sh b → edit = .committing l sh true)
        ∧ (∀ h sh b, h ≠ l → a.cal.edit = .committing h sh b → edit = a.cal.edit)
        ∧ (a.cal.edit = .none → edit = .none))
      ∧ (rx.state = .brk → exec (.lineBreak w l) s = .next s)
      ∧ (rx.state = .brk → exec (.breakEnd w l) s = .next
          (a.onLink l (fun k => { k with rx := { k.rx with state := .hunt } })))
      ∧ (rx.state ≠ .brk → exec (.breakEnd w l) s = .next s)

/-! ## The transmitter -/

/-- READY is a level: a change reaches the link's input and changes nothing else (R140). A reply frame begins when the line
is free, READY is asserted and the executing command's reply is built (R157). It carries the displaced count, which
becomes 0 (R155); while READY is negated or a frame is on the line no frame begins (R158). When its last CRC byte has been
sent the command leaves its slot, and a waiting command moves up and is taken at that instant (R154), just as if it
reached an idle link; after a break only the line becomes free (R150). -/
def Obligations.ReplyCarriesDisplacedAndFreesItsSlot : Prop :=
  (∀ (s : State) (w : Nat) (l : Link) (level : Bool), s.mayWait w →
    exec (.readyChange w l level) s = .next ((s.advance w).onLink l (fun k => { k with ready := level })))
  ∧ (∀ (s : State) (l : Link) (e : Executing) (r : Reply), s.powered = true → s.resetDue = false →
    let k := s.links.get l
    (k.ready = true → k.tx = none → k.executing = some e → e.reply = some r →
        exec (.replyBegin l) s = .next (s.onLink l (fun k =>
          { k with
            displaced := 0
            tx := some ⟨.reply true, frameOf ([byteOf r.payload.length, e.command.kind, e.command.tag, r.status.code,
              byteOf k.displaced] ++ r.payload)⟩ })))
      ∧ (k.ready = false ∨ k.tx ≠ none →
          exec (.replyBegin l) s = .next s ∧ exec (.transferFrameBegin l) s = .next s
            ∧ exec (.streamFrameBegin l) s = .next s))
  ∧ ∀ (s : State) (w : Nat) (l : Link) (bytes : List Byte), s.mayWait w →
    let a := s.advance w
    let k := a.links.get l
    (k.tx = some ⟨.reply false, bytes⟩ → exec (.replySent w l) s = .next (a.onLink l (fun k => { k with tx := none })))
      ∧ (k.tx = some ⟨.reply true, bytes⟩ → k.waiting = none →
          exec (.replySent w l) s = .next (a.onLink l (fun k => { k with tx := none, executing := none })))
      ∧ (k.tx = some ⟨.reply true, bytes⟩ → ∀ c i, k.waiting = some c → i.arrival = some (0, l, c) →
          exec (.replySent w l) s = .next
              ((a.onLink l (fun k => { k with tx := none, executing := none, waiting := none })).begin l c)
            ∧ ∀ u : State, u.takesAt 0 l → exec i u = .next (u.begin l c))

/-- A record frame begins with a copy of the record at the cursor (R163, R170): a transfer's frame with KIND 0xA0 and the
command's TAG while the transfer is RUNNING and short of its count; a stream frame with KIND 0xA1 and the stream tag when
the stream is on and the executing command has no frame ready (R157, R171). -/
def Obligations.RecordFrameCarriesTheRecordAtTheCursor : Prop :=
  ∀ (s : State) (l : Link) (q : SeqRecord), s.powered = true → s.resetDue = false →
    let k := s.links.get l
    k.ready = true → k.tx = none → k.cursor ≠ s.ring.next → s.ring.find k.cursor = some q →
    let body (kind tag : Byte) : List Byte := [byteOf q.payload.length, kind, tag] ++ q.payload
    (∀ e t, k.executing = some e → e.reply = none → e.transfer = some t → t.phase = .running → t.delivered < t.requested →
        exec (.transferFrameBegin l) s = .next
            (s.onLink l (fun k => { k with tx := some ⟨.transfer true q, frameOf (body 0xA0 e.command.tag)⟩ }))
        ∧ exec (.streamFrameBegin l) s = .next s)
      ∧ (k.stream = true → (k.executing = none ∨ ∃ e, k.executing = some e ∧ e.reply = none ∧ e.transfer = none) →
        exec (.streamFrameBegin l) s = .next
            (s.onLink l (fun k => { k with tx := some ⟨.stream q, frameOf (body 0xA1 k.streamTag)⟩ })))
      ∧ (∀ e r, k.executing = some e → e.reply = some r →
        exec (.streamFrameBegin l) s = .next s ∧ exec (.transferFrameBegin l) s = .next s)

/-- A record frame is delivered (R132, R164, R165, R170): the cursor advances by one if it still names the record
carried. A transfer's delivered count goes up by one, and the transfer ends, with its final reply, when the count is
reached or the link is caught up. A frame whose command a break removed, and a stream frame, only move the cursor. That a
stream frame makes no end test, even where it brings the cursor of a RUNNING transfer to next sequence, is the model's
reading of R164 and R170 (assumption log 11). -/
def Obligations.DeliveryAdvancesTheCursor : Prop :=
  ∀ (s : State) (w : Nat) (l : Link) (q : SeqRecord) (bytes : List Byte), s.mayWait w →
    let a := s.advance w
    let k := a.links.get l
    let cur := if k.cursor = q.seq then q.seq + 1 else k.cursor
    let only := a.onLink l (fun k => { k with tx := none, cursor := cur })
    (k.tx = some ⟨.stream q, bytes⟩ → exec (.streamFrameDelivered w l) s = .next only)
      ∧ (k.tx = some ⟨.transfer false q, bytes⟩ → exec (.transferFrameDelivered w l) s = .next only)
      ∧ (k.tx = some ⟨.transfer true q, bytes⟩ → ∀ e t, k.executing = some e → e.transfer = some t →
          (t.delivered + 1 < t.requested ∧ cur ≠ a.ring.next →
            exec (.transferFrameDelivered w l) s = .next (a.onLink l (fun k =>
              { k with tx := none, cursor := cur
                       executing := some { e with transfer := some { t with delivered := t.delivered + 1 } } })))
          ∧ (t.requested ≤ t.delivered + 1 ∨ cur = a.ring.next →
            exec (.transferFrameDelivered w l) s = .next (a.onLink l (fun k =>
              { k with tx := none, cursor := cur
                       executing := some { e with
                         transfer := some { t with delivered := t.delivered + 1, phase := .ended }
                         reply := some ⟨.ok, byteOf (t.delivered + 1) :: (be32 cur ++ be32 a.ring.next)⟩ } }))))

/-! ## The command queue -/

/-- R152: a command that meets an occupied executing slot waits; one that meets both slots occupied displaces the one
that waited, and the two counts each increase by one up to 255 and 65,535. It has no other effect. During a break no
command arrives (R151, R172), nor while a byte is undecided (R145). This holds of every station command. -/
def Obligations.BusyLinkQueuesOrDisplaces : Prop :=
  ∀ (s : State) (i : Instr) (w : Nat) (l : Link) (c : Command), i.arrival = some (w, l, c) →
    let k := s.links.get l
    (k.rx.state = .brk ∨ k.rx.undecided = true → exec i s = .next s)
      ∧ (s.mayWait w → k.rx.state ≠ .brk → k.rx.undecided = false → k.executing ≠ none →
        (k.waiting = none →
            exec i s = .next ((s.advance w).onLink l (fun k => { k with waiting := some c })))
          ∧ (k.waiting ≠ none →
            exec i s = .next ((s.advance w).onLink l (fun k =>
              { k with
                waiting := some c
                displaced := min 255 (k.displaced + 1)
                displacedTotal := min 65535 (k.displacedTotal + 1) }))))

/-- R153: a command whose KIND is none of the 21 of Table 8-3 is answered UNKNOWN, and one of these with a payload of
another length than its own is answered LENGTH, with no other effect. A KIND of the table is no UNKNOWN_KIND (assumption
log 7): that row changes nothing. -/
def Obligations.UnknownKindsAndLengthsAreAnswered : Prop :=
  let lengths : List (Nat × Nat) :=
    [(0x10, 1), (0x11, 1), (0x12, 5), (0x20, 0), (0x21, 0), (0x22, 2), (0x23, 0), (0x24, 0), (0x25, 1), (0x30, 4), (0x40, 3),
      (0x50, 0), (0x51, 10), (0x52, 3), (0x53, 5), (0x54, 2), (0x55, 0), (0x56, 0), (0x57, 0), (0x58, 3), (0x59, 12)]
  ∀ (s : State) (w : Nat) (l : Link), s.takesAt w l →
    (∀ (kind tag : Byte) (p : List Byte), kind.toNat ∉ lengths.map (·.1) →
        exec (.unknownKind w l kind tag p) s = .next ((s.advance w).holding l ⟨kind, tag, p⟩ .unknown []))
      ∧ (∀ (kind tag : Byte) (p : List Byte), kind.toNat ∈ lengths.map (·.1) →
        exec (.unknownKind w l kind tag p) s = .next s)
      ∧ (∀ (i : Instr) (c : Command) (n : Nat), i.arrival = some (w, l, c) → (c.kind.toNat, n) ∈ lengths →
          c.payload.length ≠ n → exec i s = .next ((s.advance w).holding l c .length []))

/-! ## Commands on records -/

/-- READ RECORDS (R162, R165): count 0 is refused RANGE; counts above 16 become 16. A link that is caught up ends its
transfer at once with 0 delivered; else the transfer is RUNNING and the reply is still to come. -/
def Obligations.ReadRecordsStartsATransfer : Prop :=
  ∀ (s : State) (w : Nat) (l : Link) (tag n : Byte), s.takesAt w l →
    let a := s.advance w
    let c : Command := ⟨0x10, tag, [n]⟩
    let cursor := (a.links.get l).cursor
    let reply := (0 : Byte) :: (be32 cursor ++ be32 a.ring.next)
    let run := exec (.readRecords w l tag [n]) s
    (n = 0 → run = .next (a.holding l c .range reply))
      ∧ (n ≠ 0 → cursor = a.ring.next → run = .next (a.onLink l (fun k =>
          { k with executing := some ⟨c, some ⟨.ok, reply⟩, some ⟨min 16 n.toNat, 0, .ended⟩⟩ })))
      ∧ (n ≠ 0 → cursor ≠ a.ring.next → run = .next (a.onLink l (fun k =>
          { k with executing := some ⟨c, none, some ⟨min 16 n.toNat, 0, .running⟩⟩ })))

/-- STREAM (R169): 1 sets the flag and takes the command's TAG, 0 clears the flag and keeps the tag, any other value is
refused RANGE. The reply carries flag, cursor and next sequence after the command. -/
def Obligations.StreamSetsFlagAndTag : Prop :=
  ∀ (s : State) (w : Nat) (l : Link) (tag v : Byte), s.takesAt w l →
    let a := s.advance w
    let c : Command := ⟨0x11, tag, [v]⟩
    let reply (flag : Byte) := flag :: (be32 (a.links.get l).cursor ++ be32 a.ring.next)
    let run := exec (.stream w l tag [v]) s
    (v = 0 → run = .next ((a.onLink l (fun k => { k with stream := false })).holding l c .ok (reply 0)))
      ∧ (v = 1 → run = .next
          ((a.onLink l (fun k => { k with stream := true, streamTag := tag })).holding l c .ok (reply 1)))
      ∧ (v ≠ 0 → v ≠ 1 → run = .next (a.holding l c .range (reply (if (a.links.get l).stream then 1 else 0))))

/-- SEEK (R133 to R135): OLDEST, NEWEST and LIVE set the cursor, NEWEST of an empty ring to next sequence with ADJUSTED;
NUMBER acts by the class of its number, which R127 gives by the distance d = (n − oldest position) mod 2^32: in the ring,
next, beyond or older; an undefined mode is refused RANGE. Only the sending link's cursor changes, and the reply carries
cursor, oldest position, next sequence and record count. -/
def Obligations.SeekPlacesTheCursor : Prop :=
  (∀ (r : Ring) (n : Word), r.count ≤ 4096 →
    let d := (n - r.oldest).toNat
    (r.classOf n = .inRing ↔ d < r.count) ∧ (r.classOf n = .next ↔ d = r.count)
      ∧ (r.classOf n = .beyond ↔ r.count < d ∧ d < 2147483648)
      ∧ (r.classOf n = .older ↔ 2147483648 ≤ d))
  ∧ ∀ (s : State) (w : Nat) (l : Link) (tag mode : Byte) (n : Word), s.takesAt w l →
    let a := s.advance w
    let c : Command := ⟨0x12, tag, mode :: be32 n⟩
    let go (cursor : Word) (st : Status) : Host.Outcome State Fault Refusal :=
      .next ((a.onLink l (fun k => { k with cursor := cursor })).holding l c st
        (be32 cursor ++ be32 a.ring.oldest ++ be32 a.ring.next ++ nat16 a.ring.count))
    let here := (a.links.get l).cursor
    let run := exec (.seek w l tag (mode :: be32 n)) s
    (mode = 0 → run = go a.ring.oldest .ok)
      ∧ (mode = 1 → ∀ q rest, a.ring.records = rest ++ [q] → run = go q.seq .ok)
      ∧ (mode = 1 → a.ring.records = [] → run = go a.ring.next .adjusted)
      ∧ (mode = 2 → run = go a.ring.next .ok)
      ∧ (mode = 3 → a.ring.classOf n = .inRing ∨ a.ring.classOf n = .next → run = go n .ok)
      ∧ (mode = 3 → a.ring.classOf n = .older → run = go a.ring.oldest .adjusted)
      ∧ (mode = 3 → a.ring.classOf n = .beyond → run = go here .range)
      ∧ (3 < mode.toNat → run = go here .range)

/-! ## Commands on notices, marks and status -/

/-- READ STATUS (R183, R184, R189): one reply of 103 bytes laid out by Table 11-6, for the link on which it executes, and
no other change of what the manual gives the part. That `earlier` and `replaced` are emptied, so that no SET OFFSET which the
reply shows comes after the reading of a strobe 4 which it does not show, and no later mark before a strobe which it shows,
is the model's form of R183 (assumption logs 20 and 12). The tick position lies within 0..L − 1 (Table 1-1), also where the boundary is due and not yet taken. The
two raw-sample bytes of a channel whose last sample is NO-CONVERSION are left open, since no table
gives them a value (assumption log 19). -/
def Obligations.ReadStatusReportsTheState : Prop :=
  ∀ (s : State) (w : Nat) (l : Link) (tag : Byte), s.takesAt w l →
    let a := s.advance w
    let k := a.links.get l
    let bit (i : Nat) (b : Bool) : Nat := if b then 2 ^ i else 0
    let kind (t : Thermometer) : Nat := match t.raw with
      | none => 0
      | some (.value _) => 1
      | some .noConversion => 2
    let thermometer (p : List Byte) (i : Nat) (t : Thermometer) : Prop :=
      u8At p i = BitVec.ofNat 8 (kind t + bit 2 t.held.isSome + 8 * t.health.code)
        ∧ (t.raw = none → u16At p (i + 1) = 0)
        ∧ (∀ v, t.raw = some (.value v) → u16At p (i + 1) = BitVec.ofInt 16 v) ∧ u16At p (i + 3) = BitVec.ofInt 16 (t.held.getD 0)
        ∧ u16At p (i + 5) = BitVec.ofNat 16 t.faults
    ∃ p : List Byte,
      exec (.readStatus w l tag []) s
          = .next (State.holding { a with earlier := ⟨[], [], []⟩, replaced := none } l ⟨0x20, tag, []⟩ .ok p) ∧ p.length = 103
      ∧ u32At p 0 = a.epoch.sn ∧ (a.epoch.tickPos < a.epoch.len → u32At p 4 = BitVec.ofNat 32 a.epoch.tickPos)
      ∧ (a.epoch.len ≤ a.epoch.tickPos → u32At p 4 = BitVec.ofNat 32 (a.epoch.len - 1))
      ∧ u8At p 8 = BitVec.ofNat 8 (a.epoch.label.code + bit 1 a.epoch.conflict + bit 2 a.epoch.armed.isSome
          + bit 3 a.epoch.pendingAdj.isSome)
      ∧ u32At p 9 = a.epoch.armed.getD 0 ∧ u16At p 13 = BitVec.ofInt 16 (a.epoch.pendingAdj.getD 0)
      ∧ u32At p 15 = BitVec.ofInt 32 a.epoch.yTemp
      ∧ u8At p 19 = BitVec.ofNat 8 a.disc.clock.code
      ∧ u8At p 20 = BitVec.ofNat 8 (bit 0 a.disc.freqLimit + bit 1 a.disc.trained + bit 2 a.disc.lastPhase.isSome)
      ∧ u32At p 21 = BitVec.ofInt 32 a.disc.yDisc ∧ u32At p 25 = BitVec.ofNat 32 a.disc.u
      ∧ u8At p 29 = BitVec.ofNat 8 a.disc.good ∧ u8At p 30 = BitVec.ofNat 8 a.disc.outlierRun
      ∧ u8At p 31 = BitVec.ofNat 8 a.disc.missingRun ∧ u32At p 32 = BitVec.ofInt 32 (a.disc.lastPhase.getD 0)
      ∧ u16At p 36 = BitVec.ofNat 16 a.disc.spurious ∧ u16At p 38 = BitVec.ofNat 16 a.disc.outliers
      ∧ thermometer p 40 a.thermTS ∧ thermometer p 47 a.thermTO
      ∧ u8At p 54 = BitVec.ofNat 8 (bit 0 a.cal.oscVoid + bit 1 a.cal.oscClamp)
      ∧ u8At p 55 = a.axes.x.mode.code ∧ u8At p 56 = BitVec.ofInt 8 a.axes.x.index
      ∧ u8At p 57 = BitVec.ofNat 8 a.axes.x.settle
      ∧ u8At p 58 = a.axes.y.mode.code ∧ u8At p 59 = BitVec.ofInt 8 a.axes.y.index
      ∧ u8At p 60 = BitVec.ofNat 8 a.axes.y.settle
      ∧ u8At p 61 = a.axes.z.mode.code ∧ u8At p 62 = BitVec.ofInt 8 a.axes.z.index
      ∧ u8At p 63 = BitVec.ofNat 8 a.axes.z.settle
      ∧ u16At p 64 = a.cal.version
      ∧ u8At p 66 = BitVec.ofNat 8 (bit 0 a.cal.lock + bit 1 a.cal.configDefault + bit 2 a.cal.storeStale
          + 8 * a.cal.edit.code)
      ∧ (a.cal.edit = .none → u8At p 67 = 0xFF)
      ∧ (∀ h sh idle, a.cal.edit = .editing h sh idle → u8At p 67 = linkCode h)
      ∧ (∀ h sh b, a.cal.edit = .committing h sh b → u8At p 67 = linkCode h)
      ∧ u16At p 68 = BitVec.ofNat 16 a.ring.count ∧ u32At p 70 = a.ring.oldest ∧ u32At p 78 = a.ring.next
      ∧ (a.ring.records = [] → u32At p 74 = 0) ∧ (∀ q rest, a.ring.records = rest ++ [q] → u32At p 74 = q.seq)
      ∧ u32At p 82 = k.cursor ∧ u8At p 86 = BitVec.ofNat 8 (bit 0 k.stream)
      ∧ u16At p 87 = BitVec.ofNat 16 k.badFrames ∧ u16At p 89 = BitVec.ofNat 16 k.framingErrors
      ∧ u16At p 91 = BitVec.ofNat 16 k.timeouts ∧ u16At p 93 = BitVec.ofNat 16 k.breaks
      ∧ u16At p 95 = BitVec.ofNat 16 k.displacedTotal ∧ u16At p 97 = k.mask ∧ u16At p 99 = k.notices.bits
      ∧ u8At p 101 = BitVec.ofNat 8 (bit 0 k.latch.isSome + bit 1 k.markLine) ∧ u8At p 102 = BitVec.ofNat 8 k.ignored

/-- The code values that leave the part (Table 11-2, the band modes of Table 4-6, the edit state of Table 11-6). The payload
of a record frame (R188, Table 11-4) and a mark capture in a READ MARK reply (R189, Table 11-5): the fixed part field by
field, and after it the parts that are present, in their order, each omitted when absent. -/
def Obligations.RecordsAndCapturesFollowTheirTables : Prop :=
  ([Status.ok, .adjusted, .range, .busy, .locked, .noEdit, .conflict, .unknown, .length, .storeFault].map Status.code
      = [0x00, 0x01, 0x02, 0x03, 0x04, 0x05, 0x06, 0x07, 0x08, 0x09]
    ∧ (∀ (c : ClockState) (k : StepKind) (sn : Word) (n : Nat) (ch : Channel) (h : Health) (v : Half) (l : Link)
        (m : MarkSource),
        [Notice.clock c, .step k sn, .gap n, .temp ch h, .calib v, .baseline l, .editExpired, .mark m, .labelConflict].map
          Notice.code = [1, 2, 3, 4, 5, 6, 7, 8, 9])
    ∧ [OffsetMode.auto, .fixed].map OffsetMode.code = [0, 1]
    ∧ [ClockState.free, .acquire, .track, .holdover].map ClockState.code = [0, 1, 2, 3]
    ∧ [Health.none, .good, .held, .stale].map Health.code = [0, 1, 2, 3]
    ∧ [LabelState.unlabelled, .labelled].map LabelState.code = [0, 1]
    ∧ [Link.A, .B, .C].map linkCode = [0, 1, 2] ∧ holderCode none = 0xFF ∧ (∀ l, holderCode (some l) = linkCode l)
    ∧ [MarkSource.line, .command].map MarkSource.code = [0, 1]
    ∧ [StepKind.phase, .label, .phaseAndLabel].map StepKind.code = [0, 1, 2]
    ∧ [Channel.TS, .TO].map channelCode = [0, 1]
    ∧ [BandMode.interp, .hold, .void].map BandMode.code = [0, 1, 2]
    ∧ ∀ (h : Link) (sh : CalSet) (n : Nat) (b : Bool),
        [Edit.none, .editing h sh n, .committing h sh b].map Edit.code = [0, 1, 2]) ∧
  let bit (i : Nat) (b : Bool) : Nat := if b then 2 ^ i else 0
  let two (v : Option Int) : List Byte := match v with
    | none => []
    | some v => be16 (BitVec.ofInt 16 v)
  let four (v : Option Int) : List Byte := match v with
    | none => []
    | some v => be32 (BitVec.ofInt 32 v)
  (∀ q : SeqRecord,
    let r := q.record
    let p := q.payload
    let axis (i : Nat) (x : AxisRecord) : Prop :=
      u8At p i = BitVec.ofNat 8 (16 * x.count + x.valid) ∧ u8At p (i + 1) = BitVec.ofInt 8 x.index
        ∧ u8At p (i + 2) = BitVec.ofNat 8 (bit 0 x.satSeen + bit 1 x.stepped + bit 2 x.degraded + bit 3 x.limit
            + bit 4 x.uncorrected + bit 5 x.tempClamp)
    u32At p 0 = q.seq ∧ u32At p 4 = r.sn
      ∧ u8At p 8 = BitVec.ofNat 8 (r.clock.code + 4 * r.label.code + 8 * r.tsHealth.code + 32 * r.toHealth.code)
      ∧ u32At p 9 = BitVec.ofNat 32 r.u ∧ u16At p 13 = r.version
      ∧ u8At p 15 = BitVec.ofNat 8 (bit 0 r.timeStep + bit 1 r.labelStep + bit 2 r.disturbed + bit 3 r.calibChanged
          + bit 4 r.baselineChanged + bit 5 r.configDefault)
      ∧ u8At p 16 = BitVec.ofNat 8 (bit 0 r.tsValue.isSome + bit 1 r.toValue.isSome + bit 2 r.axes.x.value.isSome
          + bit 3 r.axes.y.value.isSome + bit 4 r.axes.z.value.isSome)
      ∧ axis 17 r.axes.x ∧ axis 20 r.axes.y ∧ axis 23 r.axes.z
      ∧ p.drop 26 = two r.tsValue ++ two r.toValue ++ four r.axes.x.value ++ four r.axes.y.value ++ four r.axes.z.value
      ∧ 26 ≤ p.length ∧ p.length ≤ 42)
  ∧ ∀ c : Capture,
    let p := c.bytes
    let axis (i : Nat) (x : CaptureAxis) : Prop :=
      u8At p i = BitVec.ofNat 8 (bit 0 x.sat + bit 1 x.settle + bit 2 x.tempClamp + bit 3 x.uncorrected)
    u8At p 0 = c.source.code ∧ u32At p 1 = c.sn ∧ u32At p 5 = BitVec.ofNat 32 c.tick
      ∧ u8At p 9 = BitVec.ofNat 8 (c.clock.code + 4 * c.label.code + 8 * c.tsHealth.code)
      ∧ u32At p 10 = BitVec.ofNat 32 c.u
      ∧ u8At p 14 = BitVec.ofNat 8 (bit 0 c.tsValue.isSome + bit 1 c.axes.x.value.isSome + bit 2 c.axes.y.value.isSome
          + bit 3 c.axes.z.value.isSome)
      ∧ axis 15 c.axes.x ∧ axis 16 c.axes.y ∧ axis 17 c.axes.z
      ∧ p.drop 18 = two c.tsValue ++ four c.axes.x.value ++ four c.axes.y.value ++ four c.axes.z.value
      ∧ 18 ≤ p.length ∧ p.length ≤ 32

/-- A notice is entered as R173 gives: the entry of its kind takes the detail, GAP details add up to at most 2^32 − 1,
and no other entry changes, nor anything else of the link. ATTN is asserted exactly while an entry is pending whose kind is enabled (R174). -/
def Obligations.RaisingANoticeSetsItsEntryAlone : Prop :=
  (∀ k : LinkState,
    let on (i : Nat) : Prop := k.mask.getLsbD i = true
    k.attn = true ↔
      (k.notices.clock ≠ none ∧ on 0) ∨ (k.notices.step ≠ none ∧ on 1) ∨ (k.notices.gap ≠ none ∧ on 2)
        ∨ (k.notices.temp ≠ none ∧ on 3) ∨ (k.notices.calib ≠ none ∧ on 4) ∨ (k.notices.baseline ≠ none ∧ on 5)
        ∨ (k.notices.editExpired = true ∧ on 6) ∨ (k.notices.mark ≠ none ∧ on 7)
        ∨ (k.notices.labelConflict = true ∧ on 8))
  ∧ (∀ (x : Notice) (k : LinkState), LinkState.raise x k = { k with notices := k.notices.raise x })
  ∧ ∀ n : NoticeSet,
    (∀ c, n.raise (.clock c) = { n with clock := some c })
      ∧ (∀ k sn, n.raise (.step k sn) = { n with step := some (k, sn) })
      ∧ (∀ m, n.raise (.gap m) = { n with gap := some (min 4294967295 (n.gap.getD 0 + m)) })
      ∧ (∀ ch h, n.raise (.temp ch h) = { n with temp := some (ch, h) })
      ∧ (∀ v, n.raise (.calib v) = { n with calib := some v })
      ∧ (∀ l, n.raise (.baseline l) = { n with baseline := some l })
      ∧ n.raise .editExpired = { n with editExpired := true }
      ∧ (∀ src, n.raise (.mark src) = { n with mark := some src })
      ∧ n.raise .labelConflict = { n with labelConflict := true }

/-- READ NOTICE (R176): with nothing pending the reply says NONE; else the highest-priority entry is reported with its
detail and the kinds still pending, and is removed unless it is MARK. Masks play no part, and nothing else of
what the manual gives the part changes. That `replaced` is emptied, so that a later mark, which the reply does not show, does
not come before a strobe whose GAP notice it shows, is the model's form of R46 (assumption log 12). -/
def Obligations.ReadNoticeReportsTheHighestEntry : Prop :=
  ∀ (s : State) (w : Nat) (l : Link) (tag : Byte), s.takesAt w l →
    let a := s.advance w
    let n := (a.links.get l).notices
    let run := exec (.readNotice w l tag []) s
    let reports (left : NoticeSet) (kind : Byte) (detail : List Byte) : Prop :=
      run = .next ((State.onLink { a with replaced := none } l (fun k => { k with notices := left })).holding l ⟨0x21, tag, []⟩ .ok
        (kind :: (detail ++ be16 left.bits)))
    let higher (i : Nat) : Prop :=
      (1 ≤ i → n.clock = none) ∧ (2 ≤ i → n.step = none) ∧ (3 ≤ i → n.gap = none) ∧ (4 ≤ i → n.temp = none)
        ∧ (5 ≤ i → n.calib = none) ∧ (6 ≤ i → n.baseline = none) ∧ (7 ≤ i → n.editExpired = false)
        ∧ (8 ≤ i → n.mark = none) ∧ (9 ≤ i → n.labelConflict = false)
    (∀ c, n.clock = some c → reports { n with clock := none } 1 [BitVec.ofNat 8 c.code, 0, 0, 0, 0])
      ∧ (higher 1 → ∀ k sn, n.step = some (k, sn) → reports { n with step := none } 2 (k.code :: be32 sn))
      ∧ (higher 2 → ∀ m, n.gap = some m → reports { n with gap := none } 3 (0 :: be32 (BitVec.ofNat 32 m)))
      ∧ (higher 3 → ∀ ch h, n.temp = some (ch, h) →
          reports { n with temp := none } 4 [channelCode ch, BitVec.ofNat 8 h.code, 0, 0, 0])
      ∧ (higher 4 → ∀ v, n.calib = some v → reports { n with calib := none } 5 (be16 v ++ [0, 0, 0]))
      ∧ (higher 5 → ∀ b, n.baseline = some b → reports { n with baseline := none } 6 [linkCode b, 0, 0, 0, 0])
      ∧ (higher 6 → n.editExpired = true → reports { n with editExpired := false } 7 [0, 0, 0, 0, 0])
      ∧ (higher 7 → ∀ src, n.mark = some src → reports n 8 [src.code, 0, 0, 0, 0])
      ∧ (higher 8 → n.labelConflict = true → reports { n with labelConflict := false } 9 [0, 0, 0, 0, 0])
      ∧ (higher 9 → reports n 0 [0, 0, 0, 0, 0])

/-- SET NOTICE MASK (R175) replaces the whole mask with the nine enables given, whatever the other seven bits, and reports
mask and kinds pending; that `replaced` is emptied, as by READ NOTICE, is the model's form of R46 (assumption log 12). SET
MARK LINE (R181) sets the line-mark enable to 0 or 1 and refuses any other value RANGE. -/
def Obligations.MaskAndMarkLineAreSet : Prop :=
  ∀ (s : State) (w : Nat) (l : Link) (tag : Byte), s.takesAt w l →
    let a := s.advance w
    let k := a.links.get l
    let full : Byte := if k.latch.isSome then 1 else 0
    (∀ m : Half, exec (.setNoticeMask w l tag (be16 m)) s = .next
        ((State.onLink { a with replaced := none } l (fun k => { k with mask := m &&& 0x01FF })).holding l ⟨0x22, tag, be16 m⟩ .ok
          (be16 (m &&& 0x01FF) ++ be16 k.notices.bits)))
      ∧ (exec (.setMarkLine w l tag [0]) s = .next
          ((a.onLink l (fun k => { k with markLine := false })).holding l ⟨0x25, tag, [0]⟩ .ok
            [0, full, BitVec.ofNat 8 k.ignored]))
      ∧ (exec (.setMarkLine w l tag [1]) s = .next
          ((a.onLink l (fun k => { k with markLine := true })).holding l ⟨0x25, tag, [1]⟩ .ok
            [1, full, BitVec.ofNat 8 k.ignored]))
      ∧ (∀ v, v ≠ 0 → v ≠ 1 → exec (.setMarkLine w l tag [v]) s = .next
          (a.holding l ⟨0x25, tag, [v]⟩ .range
            [if k.markLine then 1 else 0, full, BitVec.ofNat 8 k.ignored]))

/-- MARK (R177, R179, R180): a capture of source COMMAND is offered to the sending link's latch. An empty latch takes it,
raises MARK and is answered CAPTURED; a full latch keeps its capture, counts the mark up to 255 and is answered HELD with
the Second Number and tick position of the capture held. With the boundary due and not yet taken the capture names the last
tick position of the interval that ends (R177). The axis values are those of MarkLineEdgeFillsTheEnabledLatches: where a
strobe came at this very instant, the free value Config.newReadingFound says which reading each axis gives. That free value,
that the choice counter `choices` counts on, and that `replaced` keeps for a later mark no older reading than this one found,
are the model's form of R46 (assumption log 12). READ MARK (R182): a full latch is returned with the ignored count, and
latch, count and MARK entry are emptied; an empty latch is reported as such and nothing changes. -/
def Obligations.MarkFillsAndReadMarkEmptiesTheLatch : Prop :=
  (∀ (s : State) (w : Nat) (l : Link) (tag : Byte), s.takesAt w l →
    let a := s.advance w
    let k := a.links.get l
    let c : Command := ⟨0x23, tag, []⟩
    let marked : State :=
      { a with
        choices := a.choices + 1
        replaced := a.replaced.map (fun old =>
          { old with readings := ⟨a.captureReading .X, a.captureReading .Y, a.captureReading .Z⟩ }) }
    (k.latch = none → ∃ cap : Capture,
        exec (.mark w l tag []) s = .next
          ((marked.onLink l (fun k =>
              { k with latch := some cap, notices := { k.notices with mark := some .command } })).holding l c .ok
            ([1] ++ be32 a.epoch.sn ++ be32 (BitVec.ofNat 32 cap.tick) ++ [BitVec.ofNat 8 k.ignored]))
        ∧ cap.source = .command ∧ cap.sn = a.epoch.sn ∧ (a.epoch.tickPos < a.epoch.len → cap.tick = a.epoch.tickPos)
        ∧ (a.epoch.len ≤ a.epoch.tickPos → cap.tick = a.epoch.len - 1)
        ∧ cap.label = a.epoch.label ∧ cap.clock = a.disc.clock ∧ cap.u = a.disc.u ∧ cap.tsHealth = a.thermTS.health
        ∧ (a.thermTS.health = .none → cap.tsValue = none) ∧ (a.thermTS.health ≠ .none → cap.tsValue = a.thermTS.held)
        ∧ (∀ x, cap.axes.get x = a.captureAxis x))
      ∧ (∀ held, k.latch = some held → exec (.mark w l tag []) s = .next
          ((marked.onLink l
              (fun k => { k with ignored := min 255 (k.ignored + 1) })).holding l c .ok
            ([2] ++ be32 held.sn ++ be32 (BitVec.ofNat 32 held.tick) ++ [BitVec.ofNat 8 (min 255 (k.ignored + 1))]))))
  ∧ ∀ (s : State) (w : Nat) (l : Link) (tag : Byte), s.takesAt w l →
    let a := s.advance w
    let k := a.links.get l
    (k.latch = none → exec (.readMark w l tag []) s = .next
        (a.holding l ⟨0x24, tag, []⟩ .ok [0, BitVec.ofNat 8 k.ignored]))
      ∧ (∀ cap, k.latch = some cap → exec (.readMark w l tag []) s = .next
          ((a.onLink l (fun k =>
              { k with latch := none, ignored := 0, notices := { k.notices with mark := none } })).holding l
            ⟨0x24, tag, []⟩ .ok ([1, BitVec.ofNat 8 k.ignored] ++ cap.bytes)))

/-! ## Commands on the time scale and the axes -/

/-- LABEL NEXT SECOND (R13, R14): the first label is armed; an equal one changes nothing; a differing one removes the
armed label, sets the conflict flag and raises LABEL-CONFLICT on all three links; while the flag is set every label is
answered CONFLICT. Every reply carries the Second Number of the interval in progress. -/
def Obligations.LabelIsArmedOrMeetsAConflict : Prop :=
  ∀ (s : State) (w : Nat) (l : Link) (tag : Byte) (v : Word), s.takesAt w l →
    let a := s.advance w
    let c : Command := ⟨0x30, tag, be32 v⟩
    let run := exec (.labelNextSecond w l tag (be32 v)) s
    (a.epoch.conflict = false → a.epoch.armed = none →
        run = .next (State.holding { a with epoch := { a.epoch with armed := some v } } l c .ok (be32 a.epoch.sn)))
      ∧ (a.epoch.conflict = false → a.epoch.armed = some v → run = .next (a.holding l c .ok (be32 a.epoch.sn)))
      ∧ (∀ u, a.epoch.conflict = false → a.epoch.armed = some u → u ≠ v →
          run = .next (State.holding
            { a with
              epoch := { a.epoch with armed := none, conflict := true }
              links := a.links.map (LinkState.raise .labelConflict) } l c .conflict (be32 a.epoch.sn)))
      ∧ (a.epoch.conflict = true → run = .next (a.holding l c .conflict (be32 a.epoch.sn)))

/-- SET OFFSET (R53 to R55): FIXED with an index within −6..+6 sets mode and index and loads the settle count with 3; AUTO
sets the mode alone, whatever its index byte; a FIXED index outside is refused RANGE with the axis's state, a bad axis or
mode code is refused RANGE alone. Only the named axis changes. That a command whose reply reports the axis stays in reach
of a strobe 4 of the same instant (`earlier`) is the model's form of R86 (assumption log 20). -/
def Obligations.SetOffsetActsOnItsAxis : Prop :=
  ∀ (s : State) (w : Nat) (l : Link) (tag m i : Byte), s.takesAt w l →
    let a := s.advance w
    (∀ x : Axis,
      let p : List Byte := [axisByte x, m, i]
      let ch := a.axes.get x
      let reach (c : OffsetChange) : PerAxis (List Setting) := a.earlier.modify x (fun qs => ⟨l, ch, c⟩ :: qs)
      let run := exec (.setOffset w l tag p) s
      (m = 1 → -6 ≤ i.toInt → i.toInt ≤ 6 → run = .next (State.holding
          { a with
            axes := a.axes.modify x (fun ch => { ch with mode := .fixed, index := i.toInt, settle := 3 })
            earlier := reach (.fixed i.toInt) }
          l ⟨0x40, tag, p⟩ .ok [1, i, 3]))
        ∧ (m = 1 → i.toInt < -6 ∨ 6 < i.toInt → run = .next (State.holding { a with earlier := reach .refused }
            l ⟨0x40, tag, p⟩ .range [ch.mode.code, BitVec.ofInt 8 ch.index, BitVec.ofNat 8 ch.settle]))
        ∧ (m = 0 → run = .next (State.holding
            { a with axes := a.axes.modify x (fun ch => { ch with mode := .auto }), earlier := reach .auto }
            l ⟨0x40, tag, p⟩ .ok [0, BitVec.ofInt 8 ch.index, BitVec.ofNat 8 ch.settle]))
        ∧ (m ≠ 0 → m ≠ 1 → run = .next (a.holding l ⟨0x40, tag, p⟩ .range [])))
      ∧ ∀ x : Byte, 2 < x.toNat →
        exec (.setOffset w l tag [x, m, i]) s = .next (a.holding l ⟨0x40, tag, [x, m, i]⟩ .range [])

/-! ## Commands on the calibration -/

/-- OPEN EDIT (R107): in NONE with the lock clear it copies the active calibration into a shadow held by the sender, with
a full idle timer; with the lock set it is refused LOCKED; from the holder in EDITING it reloads the timer and keeps the
shadow; from another link, or in COMMITTING, it is refused BUSY with the holder's name. -/
def Obligations.OpenEditGivesOneHolder : Prop :=
  ∀ (s : State) (w : Nat) (l : Link) (tag : Byte), s.takesAt w l →
    let a := s.advance w
    let c : Command := ⟨0x50, tag, []⟩
    let run := exec (.openEdit w l tag []) s
    let edit (e : Edit) : State := { a with cal := { a.cal with edit := e } }
    (a.cal.edit = .none → a.cal.lock = false → run = .next
        ((edit (.editing l a.cal.active 1200000000)).holding l c .ok (be16 a.cal.version ++ [linkCode l])))
      ∧ (a.cal.edit = .none → a.cal.lock = true → run = .next (a.holding l c .locked []))
      ∧ (∀ sh idle, a.cal.edit = .editing l sh idle → run = .next
          ((edit (.editing l sh 1200000000)).holding l c .ok (be16 a.cal.version ++ [linkCode l])))
      ∧ (∀ h sh idle, h ≠ l → a.cal.edit = .editing h sh idle →
          run = .next (a.holding l c .busy (be16 a.cal.version ++ [linkCode h])))
      ∧ (∀ h sh b, a.cal.edit = .committing h sh b →
          run = .next (a.holding l c .busy (be16 a.cal.version ++ [linkCode h])))

/-- The four edit writes outside EDITING, or from a link that is not the holder, change nothing: NO-EDIT in NONE and from
another link, BUSY from the holder in COMMITTING, before any check of their values (R109 to R111). -/
def Obligations.EditWritesNeedTheHolder : Prop :=
  ∀ (s : State) (i : Instr) (w : Nat) (l : Link) (c : Command) (k : Kind),
    i.arrival = some (w, l, c) → s.takesAt w l → Kind.ofByte c.kind = some k →
    k ∈ [Kind.writeKnot, .writeBand, .writeBias, .writeHoldoverRate] → c.payload.length = k.payloadLength →
    let a := s.advance w
    (a.cal.edit = .none → exec i s = .next (a.holding l c .noEdit []))
      ∧ (∀ h sh idle, h ≠ l → a.cal.edit = .editing h sh idle → exec i s = .next (a.holding l c .noEdit []))
      ∧ (∀ sh b, a.cal.edit = .committing l sh b → exec i s = .next (a.holding l c .busy []))
      ∧ (∀ h sh b, h ≠ l → a.cal.edit = .committing h sh b → exec i s = .next (a.holding l c .noEdit []))

/-- WRITE KNOT from the holder in EDITING (R109): a defined row, a knot within 0..16, terms within ±1,000,000 and G = 0
for row OSC replace both terms of that knot of the shadow and are answered OK; anything else is answered RANGE and writes
nothing. The idle timer is loaded either way (R108). -/
def Obligations.WriteKnotChangesOneKnotOfTheShadow : Prop :=
  ∀ (s : State) (w : Nat) (l : Link) (tag k : Byte) (g o : Word) (sh : CalSet) (idle : Nat), s.takesAt w l →
    s.cal.edit = .editing l sh idle →
    let a := s.advance w
    let edit (sh : CalSet) : State := { a with cal := { a.cal with edit := .editing l sh 1200000000 } }
    let inRange (v : Int) : Prop := -1000000 ≤ v ∧ v ≤ 1000000
    (∀ row : RowName,
      let p := rowByte row :: k :: (be32 g ++ be32 o)
      let run := exec (.writeKnot w l tag p) s
      let good := k.toNat ≤ 16 ∧ inRange g.toInt ∧ inRange o.toInt ∧ (row = .OSC → g = 0)
      (good → ∃ sh' : CalSet, run = .next ((edit sh').holding l ⟨0x51, tag, p⟩ .ok [])
          ∧ sh'.bias = sh.bias ∧ sh'.h = sh.h
          ∧ ∀ r, (sh'.table.row r).bands = (sh.table.row r).bands
            ∧ ∀ i, (sh'.table.row r).knot i =
                if r = row ∧ i = k.toNat then ⟨g.toInt, o.toInt⟩ else (sh.table.row r).knot i)
        ∧ (¬ good → run = .next ((edit sh).holding l ⟨0x51, tag, p⟩ .range [])))
      ∧ ∀ row : Byte, 3 < row.toNat →
        let p := row :: k :: (be32 g ++ be32 o)
        exec (.writeKnot w l tag p) s = .next ((edit sh).holding l ⟨0x51, tag, p⟩ .range [])

/-- WRITE BAND from the holder in EDITING (R110): a defined row, a band within 0..15 and a mode code 0, 1 or 2 replace the
mode of that band of the shadow, with every knot kept; anything else is answered RANGE and writes nothing. -/
def Obligations.WriteBandChangesOneBandOfTheShadow : Prop :=
  ∀ (s : State) (w : Nat) (l : Link) (tag b code : Byte) (sh : CalSet) (idle : Nat), s.takesAt w l →
    s.cal.edit = .editing l sh idle →
    let a := s.advance w
    let edit (sh : CalSet) : State := { a with cal := { a.cal with edit := .editing l sh 1200000000 } }
    let mode : BandMode := if code = 0 then .interp else if code = 1 then .hold else .void
    (∀ row : RowName,
      let p := [rowByte row, b, code]
      let run := exec (.writeBand w l tag p) s
      let good := b.toNat ≤ 15 ∧ code.toNat ≤ 2
      (good → ∃ sh' : CalSet, run = .next ((edit sh').holding l ⟨0x52, tag, p⟩ .ok [])
          ∧ sh'.bias = sh.bias ∧ sh'.h = sh.h
          ∧ ∀ r, (sh'.table.row r).knots = (sh.table.row r).knots
            ∧ ∀ i, (sh'.table.row r).band i = if r = row ∧ i = b.toNat then mode else (sh.table.row r).band i)
        ∧ (¬ good → run = .next ((edit sh).holding l ⟨0x52, tag, p⟩ .range [])))
      ∧ ∀ row : Byte, 3 < row.toNat →
        exec (.writeBand w l tag [row, b, code]) s = .next ((edit sh).holding l ⟨0x52, tag, [row, b, code]⟩ .range [])

/-- WRITE BIAS and WRITE HOLDOVER RATE from the holder in EDITING (R111): a value within ±80,000,000 for a defined axis,
and a rate of at most 1000, are written into the shadow; anything else is answered RANGE and writes nothing. -/
def Obligations.WriteBiasAndRateChangeTheShadow : Prop :=
  ∀ (s : State) (w : Nat) (l : Link) (tag : Byte) (sh : CalSet) (idle : Nat), s.takesAt w l →
    s.cal.edit = .editing l sh idle →
    let a := s.advance w
    let edit (sh : CalSet) : State := { a with cal := { a.cal with edit := .editing l sh 1200000000 } }
    (∀ (x : Axis) (v : Word),
      let p := axisByte x :: be32 v
      let good := -80000000 ≤ v.toInt ∧ v.toInt ≤ 80000000
      (good → exec (.writeBias w l tag p) s = .next
          ((edit { sh with bias := sh.bias.modify x (fun _ => v.toInt) }).holding l ⟨0x53, tag, p⟩ .ok []))
        ∧ (¬ good → exec (.writeBias w l tag p) s = .next ((edit sh).holding l ⟨0x53, tag, p⟩ .range [])))
      ∧ (∀ (x : Byte) (v : Word), 2 < x.toNat → exec (.writeBias w l tag (x :: be32 v)) s = .next
          ((edit sh).holding l ⟨0x53, tag, x :: be32 v⟩ .range []))
      ∧ ∀ v : Half,
        (v.toNat ≤ 1000 → exec (.writeHoldoverRate w l tag (be16 v)) s = .next
            ((edit { sh with h := v.toNat }).holding l ⟨0x54, tag, be16 v⟩ .ok []))
          ∧ (1000 < v.toNat → exec (.writeHoldoverRate w l tag (be16 v)) s = .next
              ((edit sh).holding l ⟨0x54, tag, be16 v⟩ .range []))

/-- COMMIT (R112, R119): from the holder in EDITING the edit is COMMITTING, and the write starts at once with the shadow,
the next version (R106), CONFIG-DEFAULT clear and the baselines, or waits behind a write in flight; the reply is still to
come. In NONE and from another link in EDITING it is refused NO-EDIT, in COMMITTING BUSY. For another link in COMMITTING
R112 says BUSY and a cell of Table 6-2 NO-EDIT: BUSY is the model's choice (assumption log 18). -/
def Obligations.CommitRequestsTheWrite : Prop :=
  ∀ (s : State) (w : Nat) (l : Link) (tag : Byte), s.takesAt w l →
    let a := s.advance w
    let c : Command := ⟨0x55, tag, []⟩
    let run := exec (.commit w l tag []) s
    let taken (st : Store) (sh : CalSet) : State :=
      { a with
        store := st
        cal := { a.cal with edit := .committing l sh false }
        links := a.links.modify l (fun k => { k with executing := some ⟨c, none, none⟩ }) }
    let version := if a.cal.version = 0xFFFF then 1 else a.cal.version + 1
    (∀ sh idle, a.cal.edit = .editing l sh idle → a.store.inFlight = none → a.resetWaiting = false →
        run = .next (taken { a.store with inFlight := some ⟨.commit, ⟨sh, version, false, a.cal.baseline⟩, 0⟩ } sh))
      ∧ (∀ sh idle, a.cal.edit = .editing l sh idle → a.store.inFlight ≠ none ∨ a.resetWaiting = true →
          run = .next (taken { a.store with commitWaiting := true } sh))
      ∧ (a.cal.edit = .none → run = .next (a.holding l c .noEdit []))
      ∧ (∀ h sh idle, h ≠ l → a.cal.edit = .editing h sh idle → run = .next (a.holding l c .noEdit []))
      ∧ (∀ h sh b, a.cal.edit = .committing h sh b → run = .next (a.holding l c .busy []))

/-- ABANDON (R115): from the holder in EDITING the shadow is discarded and the edit is NONE; in NONE and from another link
it is refused NO-EDIT, in COMMITTING BUSY. LOCK CALIBRATION (R117) sets the lock with the edit NONE, whatever the lock
before, and is refused BUSY else. -/
def Obligations.AbandonAndLockFollowTheEdit : Prop :=
  (∀ (s : State) (w : Nat) (l : Link) (tag : Byte), s.takesAt w l →
    let a := s.advance w
    let c : Command := ⟨0x56, tag, []⟩
    let run := exec (.abandon w l tag []) s
    (∀ sh idle, a.cal.edit = .editing l sh idle → run = .next
        (State.holding { a with cal := { a.cal with edit := .none } } l c .ok (be16 a.cal.version)))
      ∧ (a.cal.edit = .none → run = .next (a.holding l c .noEdit []))
      ∧ (∀ h sh idle, h ≠ l → a.cal.edit = .editing h sh idle → run = .next (a.holding l c .noEdit []))
      ∧ (∀ h sh b, a.cal.edit = .committing h sh b → run = .next (a.holding l c .busy [])))
  ∧ ∀ (s : State) (w : Nat) (l : Link) (tag : Byte), s.takesAt w l →
    let a := s.advance w
    let c : Command := ⟨0x57, tag, []⟩
    let run := exec (.lockCalibration w l tag []) s
    (a.cal.edit = .none → run = .next (State.holding { a with cal := { a.cal with lock := true } } l c .ok []))
      ∧ (∀ h sh idle, a.cal.edit = .editing h sh idle → run = .next (a.holding l c .busy []))
      ∧ (∀ h sh b, a.cal.edit = .committing h sh b → run = .next (a.holding l c .busy []))

/-- READ TABLE (R80, R81): copy ACTIVE is answered to every link, with row, copy, part, version and the part's contents;
copy SHADOW is answered to the holder in EDITING, whose timer it loads, and is refused NO-EDIT to all others before row
and part are judged; undefined codes are refused RANGE. -/
def Obligations.ReadTableAnswersFromACopy : Prop :=
  ∀ (s : State) (w : Nat) (l : Link) (tag part : Byte), s.takesAt w l →
    let a := s.advance w
    let answer (p : List Byte) (b : State) (st : Status) (out : List Byte) : Prop :=
      exec (.readTable w l tag p) s = .next (b.holding l ⟨0x58, tag, p⟩ st out)
    let loaded (sh : CalSet) : State := { a with cal := { a.cal with edit := .editing l sh 1200000000 } }
    let contents (c : CalSet) (row : RowName) : List Byte :=
      let knots (first count : Nat) := (List.range count).flatMap (fun i =>
        be32 (BitVec.ofInt 32 ((c.table.row row).knot (first + i)).g)
          ++ be32 (BitVec.ofInt 32 ((c.table.row row).knot (first + i)).o))
      let companion : Word := match row with
        | .X => BitVec.ofInt 32 c.bias.x
        | .Y => BitVec.ofInt 32 c.bias.y
        | .Z => BitVec.ofInt 32 c.bias.z
        | .OSC => BitVec.ofNat 32 c.h
      if part = 0 then knots 0 6 else if part = 1 then knots 6 6
      else knots 12 5 ++ (List.range 8).map (fun i => BitVec.ofNat 8
        (16 * ((c.table.row row).band (2 * i)).code + ((c.table.row row).band (2 * i + 1)).code)) ++ be32 companion
    (∀ row : RowName, part.toNat ≤ 2 →
      let head (copy : Byte) := [rowByte row, copy, part] ++ be16 a.cal.version
      answer [rowByte row, 0, part] a .ok (head 0 ++ contents a.cal.active row)
        ∧ ∀ sh idle, a.cal.edit = .editing l sh idle →
          answer [rowByte row, 1, part] (loaded sh) .ok (head 1 ++ contents sh row))
      ∧ (∀ row : Byte, 3 < row.toNat ∨ 2 < part.toNat →
          answer [row, 0, part] a .range []
            ∧ ∀ sh idle, a.cal.edit = .editing l sh idle → answer [row, 1, part] (loaded sh) .range [])
      ∧ (∀ row : Byte, (∀ sh idle, a.cal.edit ≠ .editing l sh idle) → answer [row, 1, part] a .noEdit [])
      ∧ (∀ row copy : Byte, 1 < copy.toNat → answer [row, copy, part] a .range [])

/-- SET BASELINE (R118, R119): three values within ±10,000,000 replace the baselines together, set the baseline change
indication, raise BASELINE with the sender's name on the two other links, and request a baseline write, which starts at
once, waits, or is absorbed; a value outside is refused RANGE and changes nothing. -/
def Obligations.SetBaselineReplacesAllThree : Prop :=
  ∀ (s : State) (w : Nat) (l : Link) (tag : Byte) (x y z : Word), s.takesAt w l →
    let a := s.advance w
    let p := be32 x ++ be32 y ++ be32 z
    let run := exec (.setBaseline w l tag p) s
    let inRange (v : Word) : Prop := -10000000 ≤ v.toInt ∧ v.toInt ≤ 10000000
    let good := inRange x ∧ inRange y ∧ inRange z
    let cal : CalUnit := { a.cal with baseline := ⟨x.toInt, y.toInt, z.toInt⟩ }
    let noticed (m : Link) (k : LinkState) : LinkState := if m = l then k else LinkState.raise (.baseline l) k
    let taken (st : Store) : State := State.holding
      { a with
        cal := cal
        asm := { a.asm with baselineChange := true }
        links := ⟨noticed .A a.links.a, noticed .B a.links.b, noticed .C a.links.c⟩
        store := st } l ⟨0x59, tag, p⟩ .ok p
    (good → a.store.inFlight = none → a.resetWaiting = false → run = .next (taken
        { a.store with inFlight := some ⟨.baseline, ⟨cal.active, cal.version, cal.configDefault, cal.baseline⟩, 0⟩ }))
      ∧ (good → a.store.inFlight ≠ none ∨ a.resetWaiting = true →
          run = .next (taken { a.store with baselinePending := true }))
      ∧ (¬ good → run = .next (a.holding l ⟨0x59, tag, p⟩ .range []))

/-! ## What every step keeps -/

/-- R125, R126: every step keeps the ring in order, with at most 4,096 records without gap and next sequence one past the
newest; R130: and each cursor between the oldest position and next sequence. The cursor part rests on the premise
FramesFresh, that no frame on a line carries next sequence: no statement shows that a step keeps it, since a frame could
carry next sequence only after 2^32 − 1 appends during its own line time, which the model leaves out (assumption log
14). -/
def Obligations.EveryStepKeepsTheRingAndItsCursors : Prop :=
  ∀ s t : State, s.ring.Sound → step s = .next t →
    t.ring.Sound ∧ (s.FramesFresh → s.CursorsBound → t.CursorsBound)

/-- Every step keeps each link's receiver, slots, line, counters, latch and notices in the shape of Tables 8-1, 8-2, 9-1
and R152, R160, R165, R173, R180. -/
def Obligations.EveryStepKeepsTheLinksSound : Prop :=
  ∀ s t : State, s.LinksSound → step s = .next t → t.LinksSound

/-- Every step keeps calibration, edit, lock and store writes in the relations of R71, R108, R112 to R120 and R123, while
power is applied. -/
def Obligations.EveryStepKeepsTheCalibrationSound : Prop :=
  ∀ s t : State, (s.powered = true → s.CalSound) → step s = .next t → t.powered = true → t.CalSound

/-- Every step keeps the Epoch Timer and the Discipline Controller within Tables 1-1, 2-1 and 2-3 and R20, R33, R38. -/
def Obligations.EveryStepKeepsTheClockSound : Prop :=
  ∀ s t : State, s.ClockSound → (s.powered = true → s.CalSound) → step s = .next t → t.ClockSound

/-- Every step keeps axis channels, thermometers and the open slot within Tables 3-1, 3-2, 4-1, 4-2 and 5-1: no list holds
more readings than its strobes (R83), and a slot stands open exactly from strobe 5 to strobe 4 (R82, R85, R99). -/
def Obligations.EveryStepKeepsTheFieldSound : Prop :=
  ∀ s t : State, s.FieldSound → s.ClockSound → step s = .next t → t.FieldSound

/-- The state after reset meets every one of these. -/
def Obligations.ResetStateIsSound : Prop :=
  State.reset.ring.Sound ∧ State.reset.CursorsBound ∧ State.reset.FramesFresh ∧ State.reset.LinksSound
    ∧ State.reset.CalSound ∧ State.reset.ClockSound ∧ State.reset.FieldSound ∧ State.reset.ValuesBounded
end

