-- ==== Sys2Proof/Laws/State.lean ====
section
/-! SUPPORT. The small lemmas of the state: one for each field and each named update, true by rfl, and the reads of
the two containers after an update. No later proof unfolds a record update. -/

namespace Sys2Proof

@[simp] theorem PerLink.get_modify_same {α : Type} (p : PerLink α) (l : Link) (f : α → α) :
    (p.modify l f).get l = f (p.get l) := by cases l <;> rfl

@[simp] theorem PerLink.get_modify_other {α : Type} (p : PerLink α) {l m : Link} (h : m ≠ l) (f : α → α) :
    (p.modify l f).get m = p.get m := by cases l <;> cases m <;> first | rfl | exact absurd rfl h

@[simp] theorem PerLink.get_map {α β : Type} (p : PerLink α) (f : α → β) (l : Link) :
    (p.map f).get l = f (p.get l) := by cases l <;> rfl

@[simp] theorem PerLink.get_fill {α : Type} (v : α) (l : Link) : (PerLink.fill v).get l = v := by cases l <;> rfl

@[simp] theorem PerAxis.get_modify_same {α : Type} (p : PerAxis α) (a : Axis) (f : α → α) :
    (p.modify a f).get a = f (p.get a) := by cases a <;> rfl

@[simp] theorem PerAxis.get_modify_other {α : Type} (p : PerAxis α) {a b : Axis} (h : b ≠ a) (f : α → α) :
    (p.modify a f).get b = p.get b := by cases a <;> cases b <;> first | rfl | exact absurd rfl h

@[simp] theorem PerAxis.get_map {α β : Type} (p : PerAxis α) (f : α → β) (a : Axis) :
    (p.map f).get a = f (p.get a) := by cases a <;> rfl

@[simp] theorem PerAxis.get_fill {α : Type} (v : α) (a : Axis) : (PerAxis.fill v).get a = v := by cases a <;> rfl

theorem PerLink.ext_get {α : Type} {p q : PerLink α} (h : ∀ l, p.get l = q.get l) : p = q := by
  cases p
  cases q
  simpa using ⟨h .A, h .B, h .C⟩

theorem PerLink.modify_modify {α : Type} (p : PerLink α) (l : Link) (f g : α → α) :
    (p.modify l f).modify l g = p.modify l (fun k => g (f k)) := by cases l <;> rfl

theorem PerLink.modify_congr {α : Type} (p : PerLink α) (l : Link) (f g : α → α) (h : f (p.get l) = g (p.get l)) :
    p.modify l f = p.modify l g := by
  cases l <;> simp_all [PerLink.modify, PerLink.get]

end Sys2Proof

namespace Sys2Proof.Machine

/-! ### State.onLink -/

@[simp] theorem State.onLink_powered (s : State) (l : Link) (f : LinkState → LinkState) : (s.onLink l f).powered = s.powered := rfl
@[simp] theorem State.onLink_epoch (s : State) (l : Link) (f : LinkState → LinkState) : (s.onLink l f).epoch = s.epoch := rfl
@[simp] theorem State.onLink_disc (s : State) (l : Link) (f : LinkState → LinkState) : (s.onLink l f).disc = s.disc := rfl
@[simp] theorem State.onLink_axes (s : State) (l : Link) (f : LinkState → LinkState) : (s.onLink l f).axes = s.axes := rfl
@[simp] theorem State.onLink_thermTS (s : State) (l : Link) (f : LinkState → LinkState) : (s.onLink l f).thermTS = s.thermTS := rfl
@[simp] theorem State.onLink_thermTO (s : State) (l : Link) (f : LinkState → LinkState) : (s.onLink l f).thermTO = s.thermTO := rfl
@[simp] theorem State.onLink_cal (s : State) (l : Link) (f : LinkState → LinkState) : (s.onLink l f).cal = s.cal := rfl
@[simp] theorem State.onLink_store (s : State) (l : Link) (f : LinkState → LinkState) : (s.onLink l f).store = s.store := rfl
@[simp] theorem State.onLink_asm (s : State) (l : Link) (f : LinkState → LinkState) : (s.onLink l f).asm = s.asm := rfl
@[simp] theorem State.onLink_ring (s : State) (l : Link) (f : LinkState → LinkState) : (s.onLink l f).ring = s.ring := rfl
@[simp] theorem State.onLink_links (s : State) (l : Link) (f : LinkState → LinkState) : (s.onLink l f).links = s.links.modify l f := rfl
@[simp] theorem State.onLink_resetWaiting (s : State) (l : Link) (f : LinkState → LinkState) : (s.onLink l f).resetWaiting = s.resetWaiting := rfl
@[simp] theorem State.onLink_samples (s : State) (l : Link) (f : LinkState → LinkState) : (s.onLink l f).samples = s.samples := rfl
@[simp] theorem State.onLink_replaced (s : State) (l : Link) (f : LinkState → LinkState) : (s.onLink l f).replaced = s.replaced := rfl
@[simp] theorem State.onLink_earlier (s : State) (l : Link) (f : LinkState → LinkState) : (s.onLink l f).earlier = s.earlier := rfl
@[simp] theorem State.onLink_choices (s : State) (l : Link) (f : LinkState → LinkState) : (s.onLink l f).choices = s.choices := rfl
@[simp] theorem State.onLink_pending (s : State) (l : Link) (f : LinkState → LinkState) : (s.onLink l f).pending = s.pending := rfl

/-! ### State.raiseOn -/

@[simp] theorem State.raiseOn_powered (s : State) (l : Link) (n : Notice) : (s.raiseOn l n).powered = s.powered := rfl
@[simp] theorem State.raiseOn_epoch (s : State) (l : Link) (n : Notice) : (s.raiseOn l n).epoch = s.epoch := rfl
@[simp] theorem State.raiseOn_disc (s : State) (l : Link) (n : Notice) : (s.raiseOn l n).disc = s.disc := rfl
@[simp] theorem State.raiseOn_axes (s : State) (l : Link) (n : Notice) : (s.raiseOn l n).axes = s.axes := rfl
@[simp] theorem State.raiseOn_thermTS (s : State) (l : Link) (n : Notice) : (s.raiseOn l n).thermTS = s.thermTS := rfl
@[simp] theorem State.raiseOn_thermTO (s : State) (l : Link) (n : Notice) : (s.raiseOn l n).thermTO = s.thermTO := rfl
@[simp] theorem State.raiseOn_cal (s : State) (l : Link) (n : Notice) : (s.raiseOn l n).cal = s.cal := rfl
@[simp] theorem State.raiseOn_store (s : State) (l : Link) (n : Notice) : (s.raiseOn l n).store = s.store := rfl
@[simp] theorem State.raiseOn_asm (s : State) (l : Link) (n : Notice) : (s.raiseOn l n).asm = s.asm := rfl
@[simp] theorem State.raiseOn_ring (s : State) (l : Link) (n : Notice) : (s.raiseOn l n).ring = s.ring := rfl
@[simp] theorem State.raiseOn_links (s : State) (l : Link) (n : Notice) : (s.raiseOn l n).links = s.links.modify l (LinkState.raise n) := rfl
@[simp] theorem State.raiseOn_resetWaiting (s : State) (l : Link) (n : Notice) : (s.raiseOn l n).resetWaiting = s.resetWaiting := rfl
@[simp] theorem State.raiseOn_samples (s : State) (l : Link) (n : Notice) : (s.raiseOn l n).samples = s.samples := rfl
@[simp] theorem State.raiseOn_replaced (s : State) (l : Link) (n : Notice) : (s.raiseOn l n).replaced = s.replaced := rfl
@[simp] theorem State.raiseOn_earlier (s : State) (l : Link) (n : Notice) : (s.raiseOn l n).earlier = s.earlier := rfl
@[simp] theorem State.raiseOn_choices (s : State) (l : Link) (n : Notice) : (s.raiseOn l n).choices = s.choices := rfl
@[simp] theorem State.raiseOn_pending (s : State) (l : Link) (n : Notice) : (s.raiseOn l n).pending = s.pending := rfl

/-! ### State.raiseAll -/

@[simp] theorem State.raiseAll_powered (s : State) (n : Notice) : (s.raiseAll n).powered = s.powered := rfl
@[simp] theorem State.raiseAll_epoch (s : State) (n : Notice) : (s.raiseAll n).epoch = s.epoch := rfl
@[simp] theorem State.raiseAll_disc (s : State) (n : Notice) : (s.raiseAll n).disc = s.disc := rfl
@[simp] theorem State.raiseAll_axes (s : State) (n : Notice) : (s.raiseAll n).axes = s.axes := rfl
@[simp] theorem State.raiseAll_thermTS (s : State) (n : Notice) : (s.raiseAll n).thermTS = s.thermTS := rfl
@[simp] theorem State.raiseAll_thermTO (s : State) (n : Notice) : (s.raiseAll n).thermTO = s.thermTO := rfl
@[simp] theorem State.raiseAll_cal (s : State) (n : Notice) : (s.raiseAll n).cal = s.cal := rfl
@[simp] theorem State.raiseAll_store (s : State) (n : Notice) : (s.raiseAll n).store = s.store := rfl
@[simp] theorem State.raiseAll_asm (s : State) (n : Notice) : (s.raiseAll n).asm = s.asm := rfl
@[simp] theorem State.raiseAll_ring (s : State) (n : Notice) : (s.raiseAll n).ring = s.ring := rfl
@[simp] theorem State.raiseAll_links (s : State) (n : Notice) : (s.raiseAll n).links = s.links.map (LinkState.raise n) := rfl
@[simp] theorem State.raiseAll_resetWaiting (s : State) (n : Notice) : (s.raiseAll n).resetWaiting = s.resetWaiting := rfl
@[simp] theorem State.raiseAll_samples (s : State) (n : Notice) : (s.raiseAll n).samples = s.samples := rfl
@[simp] theorem State.raiseAll_replaced (s : State) (n : Notice) : (s.raiseAll n).replaced = s.replaced := rfl
@[simp] theorem State.raiseAll_earlier (s : State) (n : Notice) : (s.raiseAll n).earlier = s.earlier := rfl
@[simp] theorem State.raiseAll_choices (s : State) (n : Notice) : (s.raiseAll n).choices = s.choices := rfl
@[simp] theorem State.raiseAll_pending (s : State) (n : Notice) : (s.raiseAll n).pending = s.pending := rfl

/-! ### State.answer -/

@[simp] theorem State.answer_powered (s : State) (l : Link) (st : Status) (p : List Byte) : (s.answer l st p).powered = s.powered := rfl
@[simp] theorem State.answer_epoch (s : State) (l : Link) (st : Status) (p : List Byte) : (s.answer l st p).epoch = s.epoch := rfl
@[simp] theorem State.answer_disc (s : State) (l : Link) (st : Status) (p : List Byte) : (s.answer l st p).disc = s.disc := rfl
@[simp] theorem State.answer_axes (s : State) (l : Link) (st : Status) (p : List Byte) : (s.answer l st p).axes = s.axes := rfl
@[simp] theorem State.answer_thermTS (s : State) (l : Link) (st : Status) (p : List Byte) : (s.answer l st p).thermTS = s.thermTS := rfl
@[simp] theorem State.answer_thermTO (s : State) (l : Link) (st : Status) (p : List Byte) : (s.answer l st p).thermTO = s.thermTO := rfl
@[simp] theorem State.answer_cal (s : State) (l : Link) (st : Status) (p : List Byte) : (s.answer l st p).cal = s.cal := rfl
@[simp] theorem State.answer_store (s : State) (l : Link) (st : Status) (p : List Byte) : (s.answer l st p).store = s.store := rfl
@[simp] theorem State.answer_asm (s : State) (l : Link) (st : Status) (p : List Byte) : (s.answer l st p).asm = s.asm := rfl
@[simp] theorem State.answer_ring (s : State) (l : Link) (st : Status) (p : List Byte) : (s.answer l st p).ring = s.ring := rfl
@[simp] theorem State.answer_links (s : State) (l : Link) (st : Status) (p : List Byte) : (s.answer l st p).links = s.links.modify l (LinkState.answer st p) := rfl
@[simp] theorem State.answer_resetWaiting (s : State) (l : Link) (st : Status) (p : List Byte) : (s.answer l st p).resetWaiting = s.resetWaiting := rfl
@[simp] theorem State.answer_samples (s : State) (l : Link) (st : Status) (p : List Byte) : (s.answer l st p).samples = s.samples := rfl
@[simp] theorem State.answer_replaced (s : State) (l : Link) (st : Status) (p : List Byte) : (s.answer l st p).replaced = s.replaced := rfl
@[simp] theorem State.answer_earlier (s : State) (l : Link) (st : Status) (p : List Byte) : (s.answer l st p).earlier = s.earlier := rfl
@[simp] theorem State.answer_choices (s : State) (l : Link) (st : Status) (p : List Byte) : (s.answer l st p).choices = s.choices := rfl
@[simp] theorem State.answer_pending (s : State) (l : Link) (st : Status) (p : List Byte) : (s.answer l st p).pending = s.pending := rfl

/-! ### State.setCursor -/

@[simp] theorem State.setCursor_powered (s : State) (l : Link) (c : Word) : (s.setCursor l c).powered = s.powered := rfl
@[simp] theorem State.setCursor_epoch (s : State) (l : Link) (c : Word) : (s.setCursor l c).epoch = s.epoch := rfl
@[simp] theorem State.setCursor_disc (s : State) (l : Link) (c : Word) : (s.setCursor l c).disc = s.disc := rfl
@[simp] theorem State.setCursor_axes (s : State) (l : Link) (c : Word) : (s.setCursor l c).axes = s.axes := rfl
@[simp] theorem State.setCursor_thermTS (s : State) (l : Link) (c : Word) : (s.setCursor l c).thermTS = s.thermTS := rfl
@[simp] theorem State.setCursor_thermTO (s : State) (l : Link) (c : Word) : (s.setCursor l c).thermTO = s.thermTO := rfl
@[simp] theorem State.setCursor_cal (s : State) (l : Link) (c : Word) : (s.setCursor l c).cal = s.cal := rfl
@[simp] theorem State.setCursor_store (s : State) (l : Link) (c : Word) : (s.setCursor l c).store = s.store := rfl
@[simp] theorem State.setCursor_asm (s : State) (l : Link) (c : Word) : (s.setCursor l c).asm = s.asm := rfl
@[simp] theorem State.setCursor_ring (s : State) (l : Link) (c : Word) : (s.setCursor l c).ring = s.ring := rfl
@[simp] theorem State.setCursor_links (s : State) (l : Link) (c : Word) : (s.setCursor l c).links = s.links.modify l (fun k => { k with cursor := c }) := rfl
@[simp] theorem State.setCursor_resetWaiting (s : State) (l : Link) (c : Word) : (s.setCursor l c).resetWaiting = s.resetWaiting := rfl
@[simp] theorem State.setCursor_samples (s : State) (l : Link) (c : Word) : (s.setCursor l c).samples = s.samples := rfl
@[simp] theorem State.setCursor_replaced (s : State) (l : Link) (c : Word) : (s.setCursor l c).replaced = s.replaced := rfl
@[simp] theorem State.setCursor_earlier (s : State) (l : Link) (c : Word) : (s.setCursor l c).earlier = s.earlier := rfl
@[simp] theorem State.setCursor_choices (s : State) (l : Link) (c : Word) : (s.setCursor l c).choices = s.choices := rfl
@[simp] theorem State.setCursor_pending (s : State) (l : Link) (c : Word) : (s.setCursor l c).pending = s.pending := rfl

/-! ### State.setEdit -/

@[simp] theorem State.setEdit_powered (s : State) (e : Edit) : (s.setEdit e).powered = s.powered := rfl
@[simp] theorem State.setEdit_epoch (s : State) (e : Edit) : (s.setEdit e).epoch = s.epoch := rfl
@[simp] theorem State.setEdit_disc (s : State) (e : Edit) : (s.setEdit e).disc = s.disc := rfl
@[simp] theorem State.setEdit_axes (s : State) (e : Edit) : (s.setEdit e).axes = s.axes := rfl
@[simp] theorem State.setEdit_thermTS (s : State) (e : Edit) : (s.setEdit e).thermTS = s.thermTS := rfl
@[simp] theorem State.setEdit_thermTO (s : State) (e : Edit) : (s.setEdit e).thermTO = s.thermTO := rfl
@[simp] theorem State.setEdit_cal (s : State) (e : Edit) : (s.setEdit e).cal = { s.cal with edit := e } := rfl
@[simp] theorem State.setEdit_store (s : State) (e : Edit) : (s.setEdit e).store = s.store := rfl
@[simp] theorem State.setEdit_asm (s : State) (e : Edit) : (s.setEdit e).asm = s.asm := rfl
@[simp] theorem State.setEdit_ring (s : State) (e : Edit) : (s.setEdit e).ring = s.ring := rfl
@[simp] theorem State.setEdit_links (s : State) (e : Edit) : (s.setEdit e).links = s.links := rfl
@[simp] theorem State.setEdit_resetWaiting (s : State) (e : Edit) : (s.setEdit e).resetWaiting = s.resetWaiting := rfl
@[simp] theorem State.setEdit_samples (s : State) (e : Edit) : (s.setEdit e).samples = s.samples := rfl
@[simp] theorem State.setEdit_replaced (s : State) (e : Edit) : (s.setEdit e).replaced = s.replaced := rfl
@[simp] theorem State.setEdit_earlier (s : State) (e : Edit) : (s.setEdit e).earlier = s.earlier := rfl
@[simp] theorem State.setEdit_choices (s : State) (e : Edit) : (s.setEdit e).choices = s.choices := rfl
@[simp] theorem State.setEdit_pending (s : State) (e : Edit) : (s.setEdit e).pending = s.pending := rfl

/-! ### State.setAdjustment -/

@[simp] theorem State.setAdjustment_powered (s : State) (v : Int) : (s.setAdjustment v).powered = s.powered := rfl
@[simp] theorem State.setAdjustment_epoch (s : State) (v : Int) : (s.setAdjustment v).epoch = { s.epoch with pendingAdj := some v } := rfl
@[simp] theorem State.setAdjustment_disc (s : State) (v : Int) : (s.setAdjustment v).disc = s.disc := rfl
@[simp] theorem State.setAdjustment_axes (s : State) (v : Int) : (s.setAdjustment v).axes = s.axes := rfl
@[simp] theorem State.setAdjustment_thermTS (s : State) (v : Int) : (s.setAdjustment v).thermTS = s.thermTS := rfl
@[simp] theorem State.setAdjustment_thermTO (s : State) (v : Int) : (s.setAdjustment v).thermTO = s.thermTO := rfl
@[simp] theorem State.setAdjustment_cal (s : State) (v : Int) : (s.setAdjustment v).cal = s.cal := rfl
@[simp] theorem State.setAdjustment_store (s : State) (v : Int) : (s.setAdjustment v).store = s.store := rfl
@[simp] theorem State.setAdjustment_asm (s : State) (v : Int) : (s.setAdjustment v).asm = s.asm := rfl
@[simp] theorem State.setAdjustment_ring (s : State) (v : Int) : (s.setAdjustment v).ring = s.ring := rfl
@[simp] theorem State.setAdjustment_links (s : State) (v : Int) : (s.setAdjustment v).links = s.links := rfl
@[simp] theorem State.setAdjustment_resetWaiting (s : State) (v : Int) : (s.setAdjustment v).resetWaiting = s.resetWaiting := rfl
@[simp] theorem State.setAdjustment_samples (s : State) (v : Int) : (s.setAdjustment v).samples = s.samples := rfl
@[simp] theorem State.setAdjustment_replaced (s : State) (v : Int) : (s.setAdjustment v).replaced = s.replaced := rfl
@[simp] theorem State.setAdjustment_earlier (s : State) (v : Int) : (s.setAdjustment v).earlier = s.earlier := rfl
@[simp] theorem State.setAdjustment_choices (s : State) (v : Int) : (s.setAdjustment v).choices = s.choices := rfl
@[simp] theorem State.setAdjustment_pending (s : State) (v : Int) : (s.setAdjustment v).pending = s.pending := rfl

/-! ### State.markIssued -/

@[simp] theorem State.markIssued_powered (s : State) : (s.markIssued).powered = s.powered := rfl
@[simp] theorem State.markIssued_epoch (s : State) : (s.markIssued).epoch = { s.epoch with issued := true } := rfl
@[simp] theorem State.markIssued_disc (s : State) : (s.markIssued).disc = s.disc := rfl
@[simp] theorem State.markIssued_axes (s : State) : (s.markIssued).axes = s.axes := rfl
@[simp] theorem State.markIssued_thermTS (s : State) : (s.markIssued).thermTS = s.thermTS := rfl
@[simp] theorem State.markIssued_thermTO (s : State) : (s.markIssued).thermTO = s.thermTO := rfl
@[simp] theorem State.markIssued_cal (s : State) : (s.markIssued).cal = s.cal := rfl
@[simp] theorem State.markIssued_store (s : State) : (s.markIssued).store = s.store := rfl
@[simp] theorem State.markIssued_asm (s : State) : (s.markIssued).asm = s.asm := rfl
@[simp] theorem State.markIssued_ring (s : State) : (s.markIssued).ring = s.ring := rfl
@[simp] theorem State.markIssued_links (s : State) : (s.markIssued).links = s.links := rfl
@[simp] theorem State.markIssued_resetWaiting (s : State) : (s.markIssued).resetWaiting = s.resetWaiting := rfl
@[simp] theorem State.markIssued_samples (s : State) : (s.markIssued).samples = s.samples := rfl
@[simp] theorem State.markIssued_replaced (s : State) : (s.markIssued).replaced = s.replaced := rfl
@[simp] theorem State.markIssued_earlier (s : State) : (s.markIssued).earlier = s.earlier := rfl
@[simp] theorem State.markIssued_choices (s : State) : (s.markIssued).choices = s.choices := rfl
@[simp] theorem State.markIssued_pending (s : State) : (s.markIssued).pending = s.pending := rfl

/-! ### State.seeSettings -/

@[simp] theorem State.seeSettings_powered (s : State) : (s.seeSettings).powered = s.powered := rfl
@[simp] theorem State.seeSettings_epoch (s : State) : (s.seeSettings).epoch = s.epoch := rfl
@[simp] theorem State.seeSettings_disc (s : State) : (s.seeSettings).disc = s.disc := rfl
@[simp] theorem State.seeSettings_axes (s : State) : (s.seeSettings).axes = s.axes := rfl
@[simp] theorem State.seeSettings_thermTS (s : State) : (s.seeSettings).thermTS = s.thermTS := rfl
@[simp] theorem State.seeSettings_thermTO (s : State) : (s.seeSettings).thermTO = s.thermTO := rfl
@[simp] theorem State.seeSettings_cal (s : State) : (s.seeSettings).cal = s.cal := rfl
@[simp] theorem State.seeSettings_store (s : State) : (s.seeSettings).store = s.store := rfl
@[simp] theorem State.seeSettings_asm (s : State) : (s.seeSettings).asm = s.asm := rfl
@[simp] theorem State.seeSettings_ring (s : State) : (s.seeSettings).ring = s.ring := rfl
@[simp] theorem State.seeSettings_links (s : State) : (s.seeSettings).links = s.links := rfl
@[simp] theorem State.seeSettings_resetWaiting (s : State) : (s.seeSettings).resetWaiting = s.resetWaiting := rfl
@[simp] theorem State.seeSettings_samples (s : State) : (s.seeSettings).samples = s.samples := rfl
@[simp] theorem State.seeSettings_replaced (s : State) : (s.seeSettings).replaced = s.replaced := rfl
@[simp] theorem State.seeSettings_earlier (s : State) : (s.seeSettings).earlier = PerAxis.fill [] := rfl
@[simp] theorem State.seeSettings_choices (s : State) : (s.seeSettings).choices = s.choices := rfl
@[simp] theorem State.seeSettings_pending (s : State) : (s.seeSettings).pending = s.pending := rfl

/-- Seeing the SET OFFSETs of an instant and an update of one link do not touch each other. -/
theorem State.seeSettings_onLink (s : State) (l : Link) (f : LinkState → LinkState) :
    (s.onLink l f).seeSettings = s.seeSettings.onLink l f := rfl

/-! ### State.seeStrobe -/

@[simp] theorem State.seeStrobe_powered (s : State) : (s.seeStrobe).powered = s.powered := rfl
@[simp] theorem State.seeStrobe_epoch (s : State) : (s.seeStrobe).epoch = s.epoch := rfl
@[simp] theorem State.seeStrobe_disc (s : State) : (s.seeStrobe).disc = s.disc := rfl
@[simp] theorem State.seeStrobe_axes (s : State) : (s.seeStrobe).axes = s.axes := rfl
@[simp] theorem State.seeStrobe_thermTS (s : State) : (s.seeStrobe).thermTS = s.thermTS := rfl
@[simp] theorem State.seeStrobe_thermTO (s : State) : (s.seeStrobe).thermTO = s.thermTO := rfl
@[simp] theorem State.seeStrobe_cal (s : State) : (s.seeStrobe).cal = s.cal := rfl
@[simp] theorem State.seeStrobe_store (s : State) : (s.seeStrobe).store = s.store := rfl
@[simp] theorem State.seeStrobe_asm (s : State) : (s.seeStrobe).asm = s.asm := rfl
@[simp] theorem State.seeStrobe_ring (s : State) : (s.seeStrobe).ring = s.ring := rfl
@[simp] theorem State.seeStrobe_links (s : State) : (s.seeStrobe).links = s.links := rfl
@[simp] theorem State.seeStrobe_resetWaiting (s : State) : (s.seeStrobe).resetWaiting = s.resetWaiting := rfl
@[simp] theorem State.seeStrobe_samples (s : State) : (s.seeStrobe).samples = s.samples := rfl
@[simp] theorem State.seeStrobe_replaced (s : State) : (s.seeStrobe).replaced = none := rfl
@[simp] theorem State.seeStrobe_earlier (s : State) : (s.seeStrobe).earlier = s.earlier := rfl
@[simp] theorem State.seeStrobe_choices (s : State) : (s.seeStrobe).choices = s.choices := rfl
@[simp] theorem State.seeStrobe_pending (s : State) : (s.seeStrobe).pending = s.pending := rfl

/-- Seeing what a strobe left and an update of one link do not touch each other. -/
theorem State.seeStrobe_onLink (s : State) (l : Link) (f : LinkState → LinkState) :
    (s.onLink l f).seeStrobe = s.seeStrobe.onLink l f := rfl

/-! ### State.markTaken -/

@[simp] theorem State.markTaken_powered (s : State) : (s.markTaken).powered = s.powered := rfl
@[simp] theorem State.markTaken_epoch (s : State) : (s.markTaken).epoch = s.epoch := rfl
@[simp] theorem State.markTaken_disc (s : State) : (s.markTaken).disc = s.disc := rfl
@[simp] theorem State.markTaken_axes (s : State) : (s.markTaken).axes = s.axes := rfl
@[simp] theorem State.markTaken_thermTS (s : State) : (s.markTaken).thermTS = s.thermTS := rfl
@[simp] theorem State.markTaken_thermTO (s : State) : (s.markTaken).thermTO = s.thermTO := rfl
@[simp] theorem State.markTaken_cal (s : State) : (s.markTaken).cal = s.cal := rfl
@[simp] theorem State.markTaken_store (s : State) : (s.markTaken).store = s.store := rfl
@[simp] theorem State.markTaken_asm (s : State) : (s.markTaken).asm = s.asm := rfl
@[simp] theorem State.markTaken_ring (s : State) : (s.markTaken).ring = s.ring := rfl
@[simp] theorem State.markTaken_links (s : State) : (s.markTaken).links = s.links := rfl
@[simp] theorem State.markTaken_resetWaiting (s : State) : (s.markTaken).resetWaiting = s.resetWaiting := rfl
@[simp] theorem State.markTaken_samples (s : State) : (s.markTaken).samples = s.samples := rfl
@[simp] theorem State.markTaken_replaced (s : State) : (s.markTaken).replaced = s.replaced.map (fun old =>
    { old with readings := ⟨s.captureReading .X, s.captureReading .Y, s.captureReading .Z⟩ }) := rfl
@[simp] theorem State.markTaken_earlier (s : State) : (s.markTaken).earlier = s.earlier := rfl
@[simp] theorem State.markTaken_choices (s : State) : (s.markTaken).choices = s.choices + 1 := rfl
@[simp] theorem State.markTaken_pending (s : State) : (s.markTaken).pending = s.pending := rfl

/-- A mark and an update of one link do not touch each other. -/
theorem State.markTaken_onLink (s : State) (l : Link) (f : LinkState → LinkState) :
    (s.onLink l f).markTaken = s.markTaken.onLink l f := rfl

/-! ### The readings that a capture takes (R46, R177) -/

/-- Away from a strobe, and once something that a capture holds has changed since, a capture takes the latest reading. -/
theorem State.captureReading_latest {s : State} (h : ∀ old, s.replaced = some old → s.markContext ≠ old.context) (a : Axis) :
    s.captureReading a = (s.axes.get a).latest := by
  unfold State.captureReading
  split
  · rfl
  · next old ho => rw [if_neg (fun c => h old ho c.1)]

/-- A capture takes from each axis the latest reading or the one that the strobe of this instant replaced. -/
theorem State.captureReading_mem (s : State) (a : Axis) :
    s.captureReading a = (s.axes.get a).latest
      ∨ ∃ old, s.replaced = some old ∧ s.markContext = old.context ∧ s.captureReading a = old.readings.get a := by
  unfold State.captureReading
  split
  · exact .inl rfl
  · next old ho =>
    split
    · next c => exact .inr ⟨old, ho, c.1, rfl⟩
    · exact .inl rfl

/-- A mark leaves what later marks of the instant find to the readings that it found or newer ones. -/
theorem State.markTaken_captureReading (s : State) (a : Axis) :
    s.markTaken.captureReading a = (s.axes.get a).latest ∨ s.markTaken.captureReading a = s.captureReading a := by
  rcases s.markTaken.captureReading_mem a with h | ⟨old, ho, -, h⟩
  · exact .inl h
  · right
    rw [h]
    rw [State.markTaken_replaced, Option.map_eq_some_iff] at ho
    obtain ⟨o, -, rfl⟩ := ho
    cases a <;> rfl

/-- A capture offered to an empty latch fills it and raises MARK (R180). -/
theorem LinkState.offer_empty {l : LinkState} (c : Capture) (h : l.latch = none) :
    LinkState.offer c l = { l with latch := some c, notices := { l.notices with mark := some c.source } } := by
  unfold LinkState.offer
  rw [h]
  rfl

/-- A capture offered to a full latch is counted alone (R180). -/
theorem LinkState.offer_full {l : LinkState} (c : Capture) {held : Capture} (h : l.latch = some held) :
    LinkState.offer c l = { l with ignored := min 255 (l.ignored + 1) } := by
  unfold LinkState.offer
  rw [h]
  rfl

/-! ### LinkState.raise -/

@[simp] theorem LinkState.raise_ready (l : LinkState) (n : Notice) : (LinkState.raise n l).ready = l.ready := rfl
@[simp] theorem LinkState.raise_rx (l : LinkState) (n : Notice) : (LinkState.raise n l).rx = l.rx := rfl
@[simp] theorem LinkState.raise_executing (l : LinkState) (n : Notice) : (LinkState.raise n l).executing = l.executing := rfl
@[simp] theorem LinkState.raise_waiting (l : LinkState) (n : Notice) : (LinkState.raise n l).waiting = l.waiting := rfl
@[simp] theorem LinkState.raise_displaced (l : LinkState) (n : Notice) : (LinkState.raise n l).displaced = l.displaced := rfl
@[simp] theorem LinkState.raise_tx (l : LinkState) (n : Notice) : (LinkState.raise n l).tx = l.tx := rfl
@[simp] theorem LinkState.raise_badFrames (l : LinkState) (n : Notice) : (LinkState.raise n l).badFrames = l.badFrames := rfl
@[simp] theorem LinkState.raise_framingErrors (l : LinkState) (n : Notice) : (LinkState.raise n l).framingErrors = l.framingErrors := rfl
@[simp] theorem LinkState.raise_timeouts (l : LinkState) (n : Notice) : (LinkState.raise n l).timeouts = l.timeouts := rfl
@[simp] theorem LinkState.raise_breaks (l : LinkState) (n : Notice) : (LinkState.raise n l).breaks = l.breaks := rfl
@[simp] theorem LinkState.raise_displacedTotal (l : LinkState) (n : Notice) : (LinkState.raise n l).displacedTotal = l.displacedTotal := rfl
@[simp] theorem LinkState.raise_cursor (l : LinkState) (n : Notice) : (LinkState.raise n l).cursor = l.cursor := rfl
@[simp] theorem LinkState.raise_stream (l : LinkState) (n : Notice) : (LinkState.raise n l).stream = l.stream := rfl
@[simp] theorem LinkState.raise_streamTag (l : LinkState) (n : Notice) : (LinkState.raise n l).streamTag = l.streamTag := rfl
@[simp] theorem LinkState.raise_notices (l : LinkState) (n : Notice) : (LinkState.raise n l).notices = l.notices.raise n := rfl
@[simp] theorem LinkState.raise_mask (l : LinkState) (n : Notice) : (LinkState.raise n l).mask = l.mask := rfl
@[simp] theorem LinkState.raise_latch (l : LinkState) (n : Notice) : (LinkState.raise n l).latch = l.latch := rfl
@[simp] theorem LinkState.raise_ignored (l : LinkState) (n : Notice) : (LinkState.raise n l).ignored = l.ignored := rfl
@[simp] theorem LinkState.raise_markLine (l : LinkState) (n : Notice) : (LinkState.raise n l).markLine = l.markLine := rfl

/-! ### LinkState.answer -/

@[simp] theorem LinkState.answer_ready (l : LinkState) (st : Status) (p : List Byte) : (LinkState.answer st p l).ready = l.ready := rfl
@[simp] theorem LinkState.answer_rx (l : LinkState) (st : Status) (p : List Byte) : (LinkState.answer st p l).rx = l.rx := rfl
@[simp] theorem LinkState.answer_executing (l : LinkState) (st : Status) (p : List Byte) : (LinkState.answer st p l).executing = l.executing.map (fun e => { e with reply := some ⟨st, p⟩ }) := rfl
@[simp] theorem LinkState.answer_waiting (l : LinkState) (st : Status) (p : List Byte) : (LinkState.answer st p l).waiting = l.waiting := rfl
@[simp] theorem LinkState.answer_displaced (l : LinkState) (st : Status) (p : List Byte) : (LinkState.answer st p l).displaced = l.displaced := rfl
@[simp] theorem LinkState.answer_tx (l : LinkState) (st : Status) (p : List Byte) : (LinkState.answer st p l).tx = l.tx := rfl
@[simp] theorem LinkState.answer_badFrames (l : LinkState) (st : Status) (p : List Byte) : (LinkState.answer st p l).badFrames = l.badFrames := rfl
@[simp] theorem LinkState.answer_framingErrors (l : LinkState) (st : Status) (p : List Byte) : (LinkState.answer st p l).framingErrors = l.framingErrors := rfl
@[simp] theorem LinkState.answer_timeouts (l : LinkState) (st : Status) (p : List Byte) : (LinkState.answer st p l).timeouts = l.timeouts := rfl
@[simp] theorem LinkState.answer_breaks (l : LinkState) (st : Status) (p : List Byte) : (LinkState.answer st p l).breaks = l.breaks := rfl
@[simp] theorem LinkState.answer_displacedTotal (l : LinkState) (st : Status) (p : List Byte) : (LinkState.answer st p l).displacedTotal = l.displacedTotal := rfl
@[simp] theorem LinkState.answer_cursor (l : LinkState) (st : Status) (p : List Byte) : (LinkState.answer st p l).cursor = l.cursor := rfl
@[simp] theorem LinkState.answer_stream (l : LinkState) (st : Status) (p : List Byte) : (LinkState.answer st p l).stream = l.stream := rfl
@[simp] theorem LinkState.answer_streamTag (l : LinkState) (st : Status) (p : List Byte) : (LinkState.answer st p l).streamTag = l.streamTag := rfl
@[simp] theorem LinkState.answer_notices (l : LinkState) (st : Status) (p : List Byte) : (LinkState.answer st p l).notices = l.notices := rfl
@[simp] theorem LinkState.answer_mask (l : LinkState) (st : Status) (p : List Byte) : (LinkState.answer st p l).mask = l.mask := rfl
@[simp] theorem LinkState.answer_latch (l : LinkState) (st : Status) (p : List Byte) : (LinkState.answer st p l).latch = l.latch := rfl
@[simp] theorem LinkState.answer_ignored (l : LinkState) (st : Status) (p : List Byte) : (LinkState.answer st p l).ignored = l.ignored := rfl
@[simp] theorem LinkState.answer_markLine (l : LinkState) (st : Status) (p : List Byte) : (LinkState.answer st p l).markLine = l.markLine := rfl

/-! ### LinkState.enter -/

@[simp] theorem LinkState.enter_ready (l : LinkState) (c : Command) : (LinkState.enter c l).ready = l.ready := rfl
@[simp] theorem LinkState.enter_rx (l : LinkState) (c : Command) : (LinkState.enter c l).rx = l.rx := rfl
@[simp] theorem LinkState.enter_executing (l : LinkState) (c : Command) : (LinkState.enter c l).executing = some ⟨c, none, none⟩ := rfl
@[simp] theorem LinkState.enter_waiting (l : LinkState) (c : Command) : (LinkState.enter c l).waiting = l.waiting := rfl
@[simp] theorem LinkState.enter_displaced (l : LinkState) (c : Command) : (LinkState.enter c l).displaced = l.displaced := rfl
@[simp] theorem LinkState.enter_tx (l : LinkState) (c : Command) : (LinkState.enter c l).tx = l.tx := rfl
@[simp] theorem LinkState.enter_badFrames (l : LinkState) (c : Command) : (LinkState.enter c l).badFrames = l.badFrames := rfl
@[simp] theorem LinkState.enter_framingErrors (l : LinkState) (c : Command) : (LinkState.enter c l).framingErrors = l.framingErrors := rfl
@[simp] theorem LinkState.enter_timeouts (l : LinkState) (c : Command) : (LinkState.enter c l).timeouts = l.timeouts := rfl
@[simp] theorem LinkState.enter_breaks (l : LinkState) (c : Command) : (LinkState.enter c l).breaks = l.breaks := rfl
@[simp] theorem LinkState.enter_displacedTotal (l : LinkState) (c : Command) : (LinkState.enter c l).displacedTotal = l.displacedTotal := rfl
@[simp] theorem LinkState.enter_cursor (l : LinkState) (c : Command) : (LinkState.enter c l).cursor = l.cursor := rfl
@[simp] theorem LinkState.enter_stream (l : LinkState) (c : Command) : (LinkState.enter c l).stream = l.stream := rfl
@[simp] theorem LinkState.enter_streamTag (l : LinkState) (c : Command) : (LinkState.enter c l).streamTag = l.streamTag := rfl
@[simp] theorem LinkState.enter_notices (l : LinkState) (c : Command) : (LinkState.enter c l).notices = l.notices := rfl
@[simp] theorem LinkState.enter_mask (l : LinkState) (c : Command) : (LinkState.enter c l).mask = l.mask := rfl
@[simp] theorem LinkState.enter_latch (l : LinkState) (c : Command) : (LinkState.enter c l).latch = l.latch := rfl
@[simp] theorem LinkState.enter_ignored (l : LinkState) (c : Command) : (LinkState.enter c l).ignored = l.ignored := rfl
@[simp] theorem LinkState.enter_markLine (l : LinkState) (c : Command) : (LinkState.enter c l).markLine = l.markLine := rfl

/-! ### LinkState.setRx -/

@[simp] theorem LinkState.setRx_ready (l : LinkState) (r : Receiver) : (LinkState.setRx r l).ready = l.ready := rfl
@[simp] theorem LinkState.setRx_rx (l : LinkState) (r : Receiver) : (LinkState.setRx r l).rx = r := rfl
@[simp] theorem LinkState.setRx_executing (l : LinkState) (r : Receiver) : (LinkState.setRx r l).executing = l.executing := rfl
@[simp] theorem LinkState.setRx_waiting (l : LinkState) (r : Receiver) : (LinkState.setRx r l).waiting = l.waiting := rfl
@[simp] theorem LinkState.setRx_displaced (l : LinkState) (r : Receiver) : (LinkState.setRx r l).displaced = l.displaced := rfl
@[simp] theorem LinkState.setRx_tx (l : LinkState) (r : Receiver) : (LinkState.setRx r l).tx = l.tx := rfl
@[simp] theorem LinkState.setRx_badFrames (l : LinkState) (r : Receiver) : (LinkState.setRx r l).badFrames = l.badFrames := rfl
@[simp] theorem LinkState.setRx_framingErrors (l : LinkState) (r : Receiver) : (LinkState.setRx r l).framingErrors = l.framingErrors := rfl
@[simp] theorem LinkState.setRx_timeouts (l : LinkState) (r : Receiver) : (LinkState.setRx r l).timeouts = l.timeouts := rfl
@[simp] theorem LinkState.setRx_breaks (l : LinkState) (r : Receiver) : (LinkState.setRx r l).breaks = l.breaks := rfl
@[simp] theorem LinkState.setRx_displacedTotal (l : LinkState) (r : Receiver) : (LinkState.setRx r l).displacedTotal = l.displacedTotal := rfl
@[simp] theorem LinkState.setRx_cursor (l : LinkState) (r : Receiver) : (LinkState.setRx r l).cursor = l.cursor := rfl
@[simp] theorem LinkState.setRx_stream (l : LinkState) (r : Receiver) : (LinkState.setRx r l).stream = l.stream := rfl
@[simp] theorem LinkState.setRx_streamTag (l : LinkState) (r : Receiver) : (LinkState.setRx r l).streamTag = l.streamTag := rfl
@[simp] theorem LinkState.setRx_notices (l : LinkState) (r : Receiver) : (LinkState.setRx r l).notices = l.notices := rfl
@[simp] theorem LinkState.setRx_mask (l : LinkState) (r : Receiver) : (LinkState.setRx r l).mask = l.mask := rfl
@[simp] theorem LinkState.setRx_latch (l : LinkState) (r : Receiver) : (LinkState.setRx r l).latch = l.latch := rfl
@[simp] theorem LinkState.setRx_ignored (l : LinkState) (r : Receiver) : (LinkState.setRx r l).ignored = l.ignored := rfl
@[simp] theorem LinkState.setRx_markLine (l : LinkState) (r : Receiver) : (LinkState.setRx r l).markLine = l.markLine := rfl

/-! ### LinkState.lineIdle -/

@[simp] theorem LinkState.lineIdle_ready (l : LinkState) : (l.lineIdle).ready = l.ready := rfl
@[simp] theorem LinkState.lineIdle_rx (l : LinkState) : (l.lineIdle).rx = l.rx := rfl
@[simp] theorem LinkState.lineIdle_executing (l : LinkState) : (l.lineIdle).executing = l.executing := rfl
@[simp] theorem LinkState.lineIdle_waiting (l : LinkState) : (l.lineIdle).waiting = l.waiting := rfl
@[simp] theorem LinkState.lineIdle_displaced (l : LinkState) : (l.lineIdle).displaced = l.displaced := rfl
@[simp] theorem LinkState.lineIdle_tx (l : LinkState) : (l.lineIdle).tx = none := rfl
@[simp] theorem LinkState.lineIdle_badFrames (l : LinkState) : (l.lineIdle).badFrames = l.badFrames := rfl
@[simp] theorem LinkState.lineIdle_framingErrors (l : LinkState) : (l.lineIdle).framingErrors = l.framingErrors := rfl
@[simp] theorem LinkState.lineIdle_timeouts (l : LinkState) : (l.lineIdle).timeouts = l.timeouts := rfl
@[simp] theorem LinkState.lineIdle_breaks (l : LinkState) : (l.lineIdle).breaks = l.breaks := rfl
@[simp] theorem LinkState.lineIdle_displacedTotal (l : LinkState) : (l.lineIdle).displacedTotal = l.displacedTotal := rfl
@[simp] theorem LinkState.lineIdle_cursor (l : LinkState) : (l.lineIdle).cursor = l.cursor := rfl
@[simp] theorem LinkState.lineIdle_stream (l : LinkState) : (l.lineIdle).stream = l.stream := rfl
@[simp] theorem LinkState.lineIdle_streamTag (l : LinkState) : (l.lineIdle).streamTag = l.streamTag := rfl
@[simp] theorem LinkState.lineIdle_notices (l : LinkState) : (l.lineIdle).notices = l.notices := rfl
@[simp] theorem LinkState.lineIdle_mask (l : LinkState) : (l.lineIdle).mask = l.mask := rfl
@[simp] theorem LinkState.lineIdle_latch (l : LinkState) : (l.lineIdle).latch = l.latch := rfl
@[simp] theorem LinkState.lineIdle_ignored (l : LinkState) : (l.lineIdle).ignored = l.ignored := rfl
@[simp] theorem LinkState.lineIdle_markLine (l : LinkState) : (l.lineIdle).markLine = l.markLine := rfl

/-! ### LinkState.dropBad -/

@[simp] theorem LinkState.dropBad_ready (l : LinkState) : (l.dropBad).ready = l.ready := rfl
@[simp] theorem LinkState.dropBad_rx (l : LinkState) : (l.dropBad).rx = l.rx.toHunt := rfl
@[simp] theorem LinkState.dropBad_executing (l : LinkState) : (l.dropBad).executing = l.executing := rfl
@[simp] theorem LinkState.dropBad_waiting (l : LinkState) : (l.dropBad).waiting = l.waiting := rfl
@[simp] theorem LinkState.dropBad_displaced (l : LinkState) : (l.dropBad).displaced = l.displaced := rfl
@[simp] theorem LinkState.dropBad_tx (l : LinkState) : (l.dropBad).tx = l.tx := rfl
@[simp] theorem LinkState.dropBad_badFrames (l : LinkState) : (l.dropBad).badFrames = bump max16 l.badFrames := rfl
@[simp] theorem LinkState.dropBad_framingErrors (l : LinkState) : (l.dropBad).framingErrors = l.framingErrors := rfl
@[simp] theorem LinkState.dropBad_timeouts (l : LinkState) : (l.dropBad).timeouts = l.timeouts := rfl
@[simp] theorem LinkState.dropBad_breaks (l : LinkState) : (l.dropBad).breaks = l.breaks := rfl
@[simp] theorem LinkState.dropBad_displacedTotal (l : LinkState) : (l.dropBad).displacedTotal = l.displacedTotal := rfl
@[simp] theorem LinkState.dropBad_cursor (l : LinkState) : (l.dropBad).cursor = l.cursor := rfl
@[simp] theorem LinkState.dropBad_stream (l : LinkState) : (l.dropBad).stream = l.stream := rfl
@[simp] theorem LinkState.dropBad_streamTag (l : LinkState) : (l.dropBad).streamTag = l.streamTag := rfl
@[simp] theorem LinkState.dropBad_notices (l : LinkState) : (l.dropBad).notices = l.notices := rfl
@[simp] theorem LinkState.dropBad_mask (l : LinkState) : (l.dropBad).mask = l.mask := rfl
@[simp] theorem LinkState.dropBad_latch (l : LinkState) : (l.dropBad).latch = l.latch := rfl
@[simp] theorem LinkState.dropBad_ignored (l : LinkState) : (l.dropBad).ignored = l.ignored := rfl
@[simp] theorem LinkState.dropBad_markLine (l : LinkState) : (l.dropBad).markLine = l.markLine := rfl

/-! ### LinkState.framingError -/

@[simp] theorem LinkState.framingError_ready (l : LinkState) : (l.framingError).ready = l.ready := rfl
@[simp] theorem LinkState.framingError_rx (l : LinkState) : (l.framingError).rx = l.rx.toHunt := rfl
@[simp] theorem LinkState.framingError_executing (l : LinkState) : (l.framingError).executing = l.executing := rfl
@[simp] theorem LinkState.framingError_waiting (l : LinkState) : (l.framingError).waiting = l.waiting := rfl
@[simp] theorem LinkState.framingError_displaced (l : LinkState) : (l.framingError).displaced = l.displaced := rfl
@[simp] theorem LinkState.framingError_tx (l : LinkState) : (l.framingError).tx = l.tx := rfl
@[simp] theorem LinkState.framingError_badFrames (l : LinkState) : (l.framingError).badFrames = l.badFrames := rfl
@[simp] theorem LinkState.framingError_framingErrors (l : LinkState) : (l.framingError).framingErrors = bump max16 l.framingErrors := rfl
@[simp] theorem LinkState.framingError_timeouts (l : LinkState) : (l.framingError).timeouts = l.timeouts := rfl
@[simp] theorem LinkState.framingError_breaks (l : LinkState) : (l.framingError).breaks = l.breaks := rfl
@[simp] theorem LinkState.framingError_displacedTotal (l : LinkState) : (l.framingError).displacedTotal = l.displacedTotal := rfl
@[simp] theorem LinkState.framingError_cursor (l : LinkState) : (l.framingError).cursor = l.cursor := rfl
@[simp] theorem LinkState.framingError_stream (l : LinkState) : (l.framingError).stream = l.stream := rfl
@[simp] theorem LinkState.framingError_streamTag (l : LinkState) : (l.framingError).streamTag = l.streamTag := rfl
@[simp] theorem LinkState.framingError_notices (l : LinkState) : (l.framingError).notices = l.notices := rfl
@[simp] theorem LinkState.framingError_mask (l : LinkState) : (l.framingError).mask = l.mask := rfl
@[simp] theorem LinkState.framingError_latch (l : LinkState) : (l.framingError).latch = l.latch := rfl
@[simp] theorem LinkState.framingError_ignored (l : LinkState) : (l.framingError).ignored = l.ignored := rfl
@[simp] theorem LinkState.framingError_markLine (l : LinkState) : (l.framingError).markLine = l.markLine := rfl

/-! ### LinkState.timeOut -/

@[simp] theorem LinkState.timeOut_ready (l : LinkState) : (l.timeOut).ready = l.ready := rfl
@[simp] theorem LinkState.timeOut_rx (l : LinkState) : (l.timeOut).rx = l.rx.toHunt := rfl
@[simp] theorem LinkState.timeOut_executing (l : LinkState) : (l.timeOut).executing = l.executing := rfl
@[simp] theorem LinkState.timeOut_waiting (l : LinkState) : (l.timeOut).waiting = l.waiting := rfl
@[simp] theorem LinkState.timeOut_displaced (l : LinkState) : (l.timeOut).displaced = l.displaced := rfl
@[simp] theorem LinkState.timeOut_tx (l : LinkState) : (l.timeOut).tx = l.tx := rfl
@[simp] theorem LinkState.timeOut_badFrames (l : LinkState) : (l.timeOut).badFrames = l.badFrames := rfl
@[simp] theorem LinkState.timeOut_framingErrors (l : LinkState) : (l.timeOut).framingErrors = l.framingErrors := rfl
@[simp] theorem LinkState.timeOut_timeouts (l : LinkState) : (l.timeOut).timeouts = bump max16 l.timeouts := rfl
@[simp] theorem LinkState.timeOut_breaks (l : LinkState) : (l.timeOut).breaks = l.breaks := rfl
@[simp] theorem LinkState.timeOut_displacedTotal (l : LinkState) : (l.timeOut).displacedTotal = l.displacedTotal := rfl
@[simp] theorem LinkState.timeOut_cursor (l : LinkState) : (l.timeOut).cursor = l.cursor := rfl
@[simp] theorem LinkState.timeOut_stream (l : LinkState) : (l.timeOut).stream = l.stream := rfl
@[simp] theorem LinkState.timeOut_streamTag (l : LinkState) : (l.timeOut).streamTag = l.streamTag := rfl
@[simp] theorem LinkState.timeOut_notices (l : LinkState) : (l.timeOut).notices = l.notices := rfl
@[simp] theorem LinkState.timeOut_mask (l : LinkState) : (l.timeOut).mask = l.mask := rfl
@[simp] theorem LinkState.timeOut_latch (l : LinkState) : (l.timeOut).latch = l.latch := rfl
@[simp] theorem LinkState.timeOut_ignored (l : LinkState) : (l.timeOut).ignored = l.ignored := rfl
@[simp] theorem LinkState.timeOut_markLine (l : LinkState) : (l.timeOut).markLine = l.markLine := rfl

/-! ### LinkState.elapse -/

@[simp] theorem LinkState.elapse_ready (l : LinkState) (n : Nat) : (LinkState.elapse n l).ready = l.ready := rfl
@[simp] theorem LinkState.elapse_rx (l : LinkState) (n : Nat) : (LinkState.elapse n l).rx = l.rx.elapse n := rfl
@[simp] theorem LinkState.elapse_executing (l : LinkState) (n : Nat) : (LinkState.elapse n l).executing = l.executing := rfl
@[simp] theorem LinkState.elapse_waiting (l : LinkState) (n : Nat) : (LinkState.elapse n l).waiting = l.waiting := rfl
@[simp] theorem LinkState.elapse_displaced (l : LinkState) (n : Nat) : (LinkState.elapse n l).displaced = l.displaced := rfl
@[simp] theorem LinkState.elapse_tx (l : LinkState) (n : Nat) : (LinkState.elapse n l).tx = l.tx := rfl
@[simp] theorem LinkState.elapse_badFrames (l : LinkState) (n : Nat) : (LinkState.elapse n l).badFrames = l.badFrames := rfl
@[simp] theorem LinkState.elapse_framingErrors (l : LinkState) (n : Nat) : (LinkState.elapse n l).framingErrors = l.framingErrors := rfl
@[simp] theorem LinkState.elapse_timeouts (l : LinkState) (n : Nat) : (LinkState.elapse n l).timeouts = l.timeouts := rfl
@[simp] theorem LinkState.elapse_breaks (l : LinkState) (n : Nat) : (LinkState.elapse n l).breaks = l.breaks := rfl
@[simp] theorem LinkState.elapse_displacedTotal (l : LinkState) (n : Nat) : (LinkState.elapse n l).displacedTotal = l.displacedTotal := rfl
@[simp] theorem LinkState.elapse_cursor (l : LinkState) (n : Nat) : (LinkState.elapse n l).cursor = l.cursor := rfl
@[simp] theorem LinkState.elapse_stream (l : LinkState) (n : Nat) : (LinkState.elapse n l).stream = l.stream := rfl
@[simp] theorem LinkState.elapse_streamTag (l : LinkState) (n : Nat) : (LinkState.elapse n l).streamTag = l.streamTag := rfl
@[simp] theorem LinkState.elapse_notices (l : LinkState) (n : Nat) : (LinkState.elapse n l).notices = l.notices := rfl
@[simp] theorem LinkState.elapse_mask (l : LinkState) (n : Nat) : (LinkState.elapse n l).mask = l.mask := rfl
@[simp] theorem LinkState.elapse_latch (l : LinkState) (n : Nat) : (LinkState.elapse n l).latch = l.latch := rfl
@[simp] theorem LinkState.elapse_ignored (l : LinkState) (n : Nat) : (LinkState.elapse n l).ignored = l.ignored := rfl
@[simp] theorem LinkState.elapse_markLine (l : LinkState) (n : Nat) : (LinkState.elapse n l).markLine = l.markLine := rfl

/-! ### State.advance: only clocks and timers move -/

@[simp] theorem State.advance_zero (s : State) : s.advance 0 = s := by simp [State.advance]

@[simp] theorem State.advance_powered (n : Nat) (s : State) : (s.advance n).powered = s.powered := by
  unfold State.advance; split <;> rfl
@[simp] theorem State.advance_disc (n : Nat) (s : State) : (s.advance n).disc = s.disc := by
  unfold State.advance; split <;> rfl
@[simp] theorem State.advance_axes (n : Nat) (s : State) : (s.advance n).axes = s.axes := by
  unfold State.advance; split <;> rfl
@[simp] theorem State.advance_asm (n : Nat) (s : State) : (s.advance n).asm = s.asm := by
  unfold State.advance; split <;> rfl
@[simp] theorem State.advance_ring (n : Nat) (s : State) : (s.advance n).ring = s.ring := by
  unfold State.advance; split <;> rfl
@[simp] theorem State.advance_resetWaiting (n : Nat) (s : State) : (s.advance n).resetWaiting = s.resetWaiting := by
  unfold State.advance; split <;> rfl
@[simp] theorem State.advance_choices (n : Nat) (s : State) : (s.advance n).choices = s.choices := by
  unfold State.advance; split <;> rfl
/-- A tick that passes takes the replaced readings out of reach of a mark (R46). -/
@[simp] theorem State.advance_replaced (n : Nat) (s : State) :
    (s.advance n).replaced = if n = 0 then s.replaced else none := by
  unfold State.advance; split <;> rfl
/-- ... and the channels before a SET OFFSET out of reach of a strobe (R86). -/
@[simp] theorem State.advance_earlier (n : Nat) (s : State) :
    (s.advance n).earlier = if n = 0 then s.earlier else PerAxis.fill [] := by
  unfold State.advance; split <;> rfl
@[simp] theorem State.advance_pending (n : Nat) (s : State) : (s.advance n).pending = s.pending := by
  unfold State.advance; split <;> rfl

end Sys2Proof.Machine
end

