-- ==== Sys2Proof/Laws/Events.lean ====
section
/-! SUPPORT. What a step can do, said once: the frame of every command (`State.atInstant`), and the list of events that
have to be looked at for a claim about every command and every step. -/

namespace Sys2Proof.Machine

/-! ## The frame of a command -/

theorem State.mayWait_zero {s : State} (h : s.powered = true) : s.mayWait 0 := ⟨h, by simp [State.mayPass]⟩

/-- An event whose time has come and that can occur takes place. -/
theorem State.atInstant_of_occurs {s : State} {w : Nat} {occurs : State → Bool} (effect : State → State)
    (h : s.mayWait w) (ho : occurs (s.advance w) = true) :
    s.atInstant w occurs effect = .next (effect (s.advance w)) := by
  simp [State.atInstant, h.1, h.2, ho]

/-- An event that cannot occur at its instant does not take place. -/
theorem State.atInstant_of_not_occurs {s : State} {w : Nat} {occurs : State → Bool} (effect : State → State)
    (ho : occurs (s.advance w) = false) : s.atInstant w occurs effect = .next s := by
  simp [State.atInstant, ho]

/-- All that the frame of a command can answer. -/
theorem State.atInstant_cases (s : State) (w : Nat) (occurs : State → Bool) (effect : State → State) :
    s.atInstant w occurs effect = .next s
      ∨ (s.mayWait w ∧ occurs (s.advance w) = true ∧ s.atInstant w occurs effect = .next (effect (s.advance w))) := by
  unfold State.atInstant
  split
  · next h =>
    simp only [Bool.and_eq_true] at h
    exact .inr ⟨⟨h.1.1, h.1.2⟩, h.2, rfl⟩
  · exact .inl rfl

/-! ## The events -/

/-- What takes every state with P to a state with Q, whatever the command: P survives the passing of time that nothing
cuts short, and each event takes P at its instant to Q. With P and Q the same property this is what an invariant needs. -/
structure LedByEvents (P Q : State → Prop) : Prop where
  stay : ∀ s, P s → Q s
  time : ∀ s w, P s → s.mayWait w → P (s.advance w)
  powerOn : ∀ s, P s → Q s.powerOn
  warm : ∀ s, P s → s.powered = true → s.store.inFlight = none → Q s.warm
  resetRequest : ∀ s, P s → s.powered = true →
    Q { s with resetWaiting := true, samples := { s.samples with reset := 0 } }
  boundary : ∀ s sn, P s → s.powered = true → s.epoch.len ≤ s.epoch.tickPos → Q (s.boundary false sn)
  strobe : ∀ s k codeX codeY codeZ d, P s → s.powered = true → s.epoch.nextStrobe = some k →
    s.epoch.tickPos = strobePos k → Q (s.strobeWork k codeX codeY codeZ d)
  midpoint : ∀ s, P s → s.powered = true → s.epoch.ahead s.epoch.midpoint = true → s.epoch.tickPos = s.epoch.midpoint →
    Q s.markIssued.closeWindow
  pps : ∀ s, P s → s.powered = true → Q s.ppsRecognised
  conversion : ∀ s ch r, P s → s.powered = true → (s.thermometer ch).conversion = some 0 → Q (s.takeConversion ch r)
  lineMark : ∀ s, P s → s.powered = true → Q s.lineMark
  expire : ∀ s h sh, P s → s.powered = true → s.cal.edit = .editing h sh 0 → Q (s.expire h)
  endWrite : ∀ s w success, P s → s.powered = true → s.store.inFlight = some w → Q (s.endWrite w success)
  ready : ∀ s l level, P s → s.powered = true → Q (s.onLink l (fun k => { k with ready := level }))
  framingError : ∀ s l, P s → s.powered = true → (s.links.get l).rx.state ≠ .brk → Q (s.onLink l LinkState.framingError)
  timeOut : ∀ s l, P s → s.powered = true → Q (s.onLink l LinkState.timeOut)
  dropBad : ∀ s l, P s → s.powered = true → Q (s.onLink l LinkState.dropBad)
  takeByte : ∀ s l b r, P s → s.powered = true → (s.links.get l).rx.takeByte b = .goesOn r →
    Q (s.onLink l (LinkState.setRx r))
  holdByte : ∀ s l, P s → s.powered = true → (s.links.get l).rx.state ≠ .brk → Q (s.onLink l LinkState.holdByte)
  acceptFrame : ∀ s l b c, P s → s.powered = true → (s.links.get l).rx.takeByte b = .good c → Q (s.acceptFrame l c)
  handOver : ∀ s l c, P s → s.powered = true → Q (s.handOver l c)
  startBreak : ∀ s l, P s → s.powered = true → Q (s.startBreak l)
  endBreak : ∀ s l, P s → s.powered = true → (s.links.get l).rx.state = .brk →
    Q (s.onLink l (fun k => k.setRx { k.rx with state := .hunt }))
  beginReply : ∀ s l, P s → s.powered = true → (s.links.get l).choice s.ring.next = some .reply →
    Q (s.onLink l LinkState.beginReply)
  endReply : ∀ s l, P s → s.powered = true → Q (s.endReply l)
  beginTransfer : ∀ s l, P s → s.powered = true → (s.links.get l).choice s.ring.next = some .transfer →
    Q (s.beginTransferFrame l)
  endTransfer : ∀ s l, P s → s.powered = true → Q (s.onLink l (LinkState.endTransferFrame s.ring.next))
  beginStream : ∀ s l, P s → s.powered = true → (s.links.get l).choice s.ring.next = some .stream →
    Q (s.beginStreamFrame l)
  endStream : ∀ s l, P s → s.powered = true → Q (s.onLink l LinkState.endStreamFrame)
  powerLoss : ∀ s found, P s → s.powered = true →
    Q { s with powered := false, store := s.store.afterLoss found }

section

variable {P Q : State → Prop} (k : LedByEvents P Q) {s t : State}

include k

theorem LedByEvents.atInstant {w : Nat} {occurs : State → Bool} {effect : State → State} (hs : P s)
    (h : s.atInstant w occurs effect = .next t)
    (he : s.powered = true → P (s.advance w) → occurs (s.advance w) = true → Q (effect (s.advance w))) : Q t := by
  rcases s.atInstant_cases w occurs effect with h1 | ⟨h1, h2, h3⟩
  · rw [h1] at h
    cases h
    exact k.stay s hs
  · rw [h3] at h
    cases h
    exact he h1.1 (k.time s w hs h1) h2

theorem LedByEvents.receive (s : State) (l : Link) (b : Byte) (hs : P s) (hp : s.powered = true) : Q (s.receive l b) := by
  unfold State.receive
  split
  · next h => exact k.takeByte s l b _ hs hp h
  · exact k.dropBad s l hs hp
  · next h => exact k.acceptFrame s l b _ hs hp h

/-- A station command leads where its handing over leads. -/
theorem LedByEvents.station {w : Nat} {l : Link} {c : Command} (hs : P s) (h : s.station w l c = .next t) : Q t :=
  k.atInstant hs h (fun hp hi _ => k.handOver _ l c hi (by simpa using hp))

end

/-! ## The instants of the events the machine's state makes happen -/

theorem EpochTimer.ahead_iff (e : EpochTimer) (pos : Nat) :
    e.ahead pos = true ↔ e.tickPos < pos ∨ (e.tickPos = pos ∧ e.issued = false) := by
  simp [EpochTimer.ahead]

theorem State.advance_epoch (s : State) (n : Nat) :
    (s.advance n).epoch = if n = 0 then s.epoch else s.epoch.elapse n := by unfold State.advance; split <;> rfl

theorem State.tickPos_advance (s : State) (n : Nat) : (s.advance n).epoch.tickPos = s.epoch.tickPos + n := by
  rw [State.advance_epoch]
  split
  · next h => simp [h]
  · rfl

theorem State.len_advance (s : State) (n : Nat) : (s.advance n).epoch.len = s.epoch.len := by
  rw [State.advance_epoch]
  split <;> rfl

/-- A tick position that is still to come is still to come when it is reached. -/
theorem State.ahead_advance {s : State} {pos : Nat} (h : s.epoch.ahead pos = true) :
    (s.advance (pos - s.epoch.tickPos)).epoch.ahead pos = true
      ∧ (s.advance (pos - s.epoch.tickPos)).epoch.tickPos = pos := by
  have hle : s.epoch.tickPos ≤ pos := by
    rw [EpochTimer.ahead_iff] at h
    omega
  refine ⟨?_, by rw [State.tickPos_advance]; omega⟩
  rw [State.advance_epoch]
  split
  · exact h
  · rw [EpochTimer.ahead_iff]
    exact .inr ⟨by simp only [EpochTimer.elapse]; omega, rfl⟩

/-- The next strobe is one of the ten and still to come; the strobes before it are not. -/
theorem EpochTimer.nextStrobe_eq_some {e : EpochTimer} {k : Nat} :
    e.nextStrobe = some k ↔ k < 10 ∧ e.ahead (strobePos k) = true ∧ ∀ j < k, e.ahead (strobePos j) = false := by
  unfold EpochTimer.nextStrobe
  rw [List.find?_range_eq_some]
  simp
  exact ⟨fun h => ⟨h.2.1, h.1, h.2.2⟩, fun h => ⟨h.2.1, h.1, h.2.2⟩⟩

theorem EpochTimer.nextStrobe_eq_none {e : EpochTimer} :
    e.nextStrobe = none ↔ ∀ k < 10, e.ahead (strobePos k) = false := by
  unfold EpochTimer.nextStrobe
  rw [List.find?_range_eq_none]
  simp

/-- When the next strobe's position is reached it is still the next strobe. -/
theorem State.nextStrobe_advance {s : State} {k : Nat} (h : s.epoch.nextStrobe = some k) :
    (s.advance (strobePos k - s.epoch.tickPos)).epoch.nextStrobe = some k
      ∧ (s.advance (strobePos k - s.epoch.tickPos)).epoch.tickPos = strobePos k := by
  obtain ⟨h1, h2, h3⟩ := EpochTimer.nextStrobe_eq_some.mp h
  obtain ⟨h4, h5⟩ := State.ahead_advance h2
  refine ⟨EpochTimer.nextStrobe_eq_some.mpr ⟨h1, h4, fun j hj => ?_⟩, h5⟩
  have : strobePos j < strobePos k := by unfold strobePos; omega
  simp only [EpochTimer.ahead, h5, Bool.or_eq_false_iff, Bool.and_eq_false_iff, decide_eq_false_iff_not]
  exact ⟨by omega, .inl (by omega)⟩

/-! ## Every command and every step -/

/-- Every command leads from P to Q. -/
theorem LedByEvents.exec {P Q : State → Prop} (k : LedByEvents P Q) {s t : State} (i : Instr) (hs : P s)
    (h : exec i s = .next t) : Q t := by
  cases i with
  | powerOnReset => cases h; exact k.powerOn s hs
  | resetRequest w =>
    simp only [Machine.exec, execResetRequest] at h
    exact k.atInstant hs h (fun hp hi _ => k.resetRequest _ hi (by simpa using hp))
  | warmReset =>
    simp only [Machine.exec, execWarmReset] at h
    exact k.atInstant hs h (fun hp hi ho => k.warm _ hi (by simpa using hp) (by simpa using (Bool.and_eq_true_iff.mp ho).2))
  | ordinaryBoundary =>
    simp only [Machine.exec, execOrdinaryBoundary] at h
    exact k.atInstant hs h (fun hp hi _ => k.boundary _ _ hi (by simpa using hp)
      (by rw [State.tickPos_advance, State.len_advance]; omega))
  | epochOutEnd =>
    simp only [Machine.exec, execEpochOutEnd] at h
    exact k.atInstant hs h (fun _ hi _ => k.stay _ hi)
  | strobe x y z d =>
    simp only [Machine.exec, execStrobe] at h
    split at h
    · cases h; exact k.stay s hs
    · next n hn =>
      exact k.atInstant hs h (fun hp hi _ => k.strobe _ n x y z d hi (by simpa using hp)
        (State.nextStrobe_advance hn).1 (State.nextStrobe_advance hn).2)
  | midpointMark =>
    simp only [Machine.exec, execMidpointMark] at h
    refine k.atInstant hs h (fun hp hi ho => ?_)
    have hm : (s.advance (s.epoch.midpoint - s.epoch.tickPos)).epoch.midpoint = s.epoch.midpoint := by
      simp [EpochTimer.midpoint, State.len_advance]
    obtain ⟨h1, h2⟩ := State.ahead_advance ho
    exact k.midpoint _ hi (by simpa using hp) (by rw [hm]; exact h1) (by rw [hm]; exact h2)
  | ppsEdge w =>
    simp only [Machine.exec, execPpsEdge] at h
    exact k.atInstant hs h (fun hp hi _ => k.pps _ hi (by simpa using hp))
  | conversionEnd ch r =>
    simp only [Machine.exec, execConversionEnd] at h
    split at h
    · cases h; exact k.stay s hs
    · next n hn =>
      refine k.atInstant hs h (fun hp hi _ => k.conversion _ ch r hi (by simpa using hp) ?_)
      unfold State.advance
      cases ch <;> simp only [State.thermometer] at hn ⊢ <;> split <;> simp_all [Thermometer.elapse]
  | markLineEdge w =>
    simp only [Machine.exec, execMarkLineEdge] at h
    exact k.atInstant hs h (fun hp hi _ => k.lineMark _ hi (by simpa using hp))
  | idleExpiry =>
    simp only [Machine.exec, execIdleExpiry] at h
    split at h
    · cases h; exact k.stay s hs
    · next l sh idle he =>
      refine k.atInstant hs h (fun hp hi _ => k.expire _ l sh hi (by simpa using hp) ?_)
      unfold State.advance
      split <;> simp_all [Edit.elapse]
    · cases h; exact k.stay s hs
  | storeWriteEnd w b =>
    simp only [Machine.exec, execStoreWriteEnd] at h
    refine k.atInstant hs h (fun hp hi ho => ?_)
    unfold State.writeEnd
    split
    · exact k.stay _ hi
    · next x hx => exact k.endWrite _ x b hi (by simpa using hp) hx
  | readyChange w l b =>
    simp only [Machine.exec, execReadyChange] at h
    exact k.atInstant hs h (fun hp hi _ => k.ready _ l b hi (by simpa using hp))
  | framingError w l =>
    simp only [Machine.exec, execFramingError] at h
    exact k.atInstant hs h (fun hp hi ho => k.framingError _ l hi (by simpa using hp)
      (by simpa [State.listening] using ho))
  | interByteTimeout l =>
    simp only [Machine.exec, execInterByteTimeout] at h
    exact k.atInstant hs h (fun hp hi _ => k.timeOut _ l hi (by simpa using hp))
  | badFrame w l b =>
    simp only [Machine.exec, execBadFrame] at h
    exact k.atInstant hs h (fun hp hi _ => k.dropBad _ l hi (by simpa using hp))
  | goodFrame w l b =>
    simp only [Machine.exec, execGoodFrame] at h
    exact k.atInstant hs h (fun hp hi _ => k.receive _ l b hi (by simpa using hp))
  | lineBreak w l =>
    simp only [Machine.exec, execLineBreak] at h
    exact k.atInstant hs h (fun hp hi _ => k.startBreak _ l hi (by simpa using hp))
  | breakEnd w l =>
    simp only [Machine.exec, execBreakEnd] at h
    exact k.atInstant hs h (fun hp hi ho => k.endBreak _ l hi (by simpa using hp)
      (by simpa [State.listening] using ho))
  | replyBegin l =>
    simp only [Machine.exec, execReplyBegin] at h
    refine k.atInstant hs h (fun hp hi ho => k.beginReply _ l hi (by simpa using hp) ?_)
    simp only [State.begins, Bool.and_eq_true, decide_eq_true_eq] at ho
    exact ho.1
  | replySent w l =>
    simp only [Machine.exec, execReplySent] at h
    exact k.atInstant hs h (fun hp hi _ => k.endReply _ l hi (by simpa using hp))
  | transferFrameBegin l =>
    simp only [Machine.exec, execTransferFrameBegin] at h
    refine k.atInstant hs h (fun hp hi ho => k.beginTransfer _ l hi (by simpa using hp) ?_)
    simp only [State.begins, Bool.and_eq_true, decide_eq_true_eq] at ho
    exact ho.1
  | transferFrameDelivered w l =>
    simp only [Machine.exec, execTransferFrameDelivered] at h
    exact k.atInstant hs h (fun hp hi _ => k.endTransfer _ l hi (by simpa using hp))
  | streamFrameBegin l =>
    simp only [Machine.exec, execStreamFrameBegin] at h
    refine k.atInstant hs h (fun hp hi ho => k.beginStream _ l hi (by simpa using hp) ?_)
    simp only [State.begins, Bool.and_eq_true, decide_eq_true_eq] at ho
    exact ho.1
  | streamFrameDelivered w l =>
    simp only [Machine.exec, execStreamFrameDelivered] at h
    exact k.atInstant hs h (fun hp hi _ => k.endStream _ l hi (by simpa using hp))
  | unknownKind w l kb t p =>
    simp only [Machine.exec, execUnknownKind] at h
    exact k.atInstant hs h (fun hp hi _ => k.handOver _ l _ hi (by simpa using hp))
  | byteReceived w l b =>
    simp only [Machine.exec, execByteReceived] at h
    refine k.atInstant hs h (fun hp hi ho => ?_)
    simp only [State.hears, State.listening, Bool.and_eq_true, Bool.not_eq_true', decide_eq_false_iff_not] at ho
    cases b with
    | marking b => exact k.receive _ l b hi (by simpa using hp)
    | spacing => exact k.holdByte _ l hi (by simpa using hp) ho.1
  | powerLoss w f =>
    simp only [Machine.exec, execPowerLoss] at h
    exact k.atInstant hs h (fun hp hi _ => k.powerLoss _ f hi (by simpa using hp))
  | _ => exact k.station hs h

/-- ... and every step, if P does not speak of the queue. -/
theorem LedByEvents.step {P Q : State → Prop} (k : LedByEvents P Q) (hq : ∀ s p, P s → P { s with pending := p })
    {s t : State} (hs : P s) (h : step s = .next t) : Q t := by
  unfold Machine.step at h
  split at h
  · cases h
    unfold State.idleTick
    split
    · next hc =>
      simp only [Bool.and_eq_true] at hc
      exact k.stay _ (k.time s 1 hs ⟨hc.1, hc.2⟩)
    · exact k.stay _ hs
  · exact k.exec _ (hq s _ hs) h

end Sys2Proof.Machine
end

