-- ==== Sys2Proof/Laws/Clock.lean ====
section
/-! SUPPORT. The blocks of the time scale and of the field: what a boundary, a strobe, an append and a lookup can do, said
once for each. -/

namespace Sys2Proof.Machine

/-! ## Boundaries -/

/-- All that a boundary does, ordinary or step. -/
theorem State.boundary_outcome (a : State) (isStep : Bool) (provisional : Word) :
    BoundaryOutcome a (a.boundary isStep provisional) isStep provisional := by
  have e1 : (a.boundary isStep provisional).epoch
      = a.epoch.atBoundary isStep provisional a.disc.yDisc (a.cal.active.table.osc.lookup a.thermTO).o := by
    unfold State.boundary State.raiseStep
    dsimp only
    split <;> rfl
  have hls : isLabelStep a.epoch.armed provisional
      = decide ((a.boundary isStep provisional).epoch.sn ≠ provisional) := by
    rw [e1]
    unfold isLabelStep EpochTimer.atBoundary
    cases a.epoch.armed <;> simp
  constructor
  · rw [e1]
    simp [EpochTimer.atBoundary, nominalTicks, accModulus, epochOutTicks]
  · unfold State.boundary State.raiseStep
    dsimp only
    split <;> (by_cases hc : a.disc.clock = .holdover <;> simp [Discipline.grow, State.raiseAll, uncertaintyFree, hc])
  · unfold State.boundary State.raiseStep
    dsimp only
    split <;> rfl
  · unfold State.boundary State.raiseStep
    dsimp only
    split <;> rfl
  · unfold State.boundary State.raiseStep
    dsimp only
    split <;> rfl
  · intro h
    rw [← hls, e1]
    unfold State.boundary State.raiseStep
    dsimp only
    split <;> simp [Assembler.atBoundary, h, Slot.rebuilt, State.raiseAll] <;> rfl
  · intro h sl hs ha
    rw [← hls, e1]
    unfold State.boundary State.raiseStep
    dsimp only
    split <;> simp [Assembler.atBoundary, h, Slot.arrive, State.raiseAll, hs, ha]
  · intro h hs
    have hm : a.asm.slot.map (fun sl => sl.arrive (a.boundary isStep provisional).epoch.sn
        (a.boundary isStep provisional).epoch.label (decide ((a.boundary isStep provisional).epoch.sn ≠ provisional)))
          = a.asm.slot := by
      cases hc : a.asm.slot with
      | none => rfl
      | some sl => simp [Slot.arrive, hs sl hc]
    have ht : (a.boundary isStep provisional).asm = { a.asm with slot := a.asm.slot.map (fun sl =>
        sl.arrive (a.boundary isStep provisional).epoch.sn (a.boundary isStep provisional).epoch.label
          (decide ((a.boundary isStep provisional).epoch.sn ≠ provisional))) } := by
      rw [← hls, e1]
      unfold State.boundary State.raiseStep
      dsimp only
      split <;> simp [Assembler.atBoundary, h, State.raiseAll]
    rw [ht, hm]
  · intro h hq
    have hl : isLabelStep a.epoch.armed provisional = false := by rw [hls]; simp [hq]
    unfold State.boundary
    dsimp only
    rw [hl, h]
    rfl
  · intro h hq
    have hl : isLabelStep a.epoch.armed provisional = false := by rw [hls]; simp [hq]
    rw [e1]
    unfold State.boundary
    dsimp only
    rw [hl, h]
    rfl
  · intro h hq
    have hl : isLabelStep a.epoch.armed provisional = true := by rw [hls]; simp [hq]
    rw [e1]
    unfold State.boundary
    dsimp only
    rw [hl, h]
    rfl
  · intro h hq
    have hl : isLabelStep a.epoch.armed provisional = true := by rw [hls]; simp [hq]
    rw [e1]
    unfold State.boundary
    dsimp only
    rw [hl, h]
    rfl
  · unfold State.boundary State.raiseStep
    dsimp only
    split <;> simp

/-- All that a phase step does: one step boundary (R10, R36, R101). -/
theorem State.phaseStep_outcome (a : State) (p : Int) :
    BoundaryOutcome a (a.phaseStep p) true (if p < 0 then a.epoch.sn + 1 else a.epoch.sn) := a.boundary_outcome _ _

/-- A measured edge is judged by the rule of the clock state (R19, R21, R22). -/
theorem exec_ppsEdge_measured {s : State} {w : Nat} {p : Int} (hw : s.mayWait w) (h1 : (s.advance w).samples.pps = 2)
    (h2 : (s.advance w).disc.windowMeasured = false) (hp : p = (s.advance w).phaseNow) :
    exec (.ppsEdge w) s = .next (State.evaluateEdge
      { s.advance w with
        samples := { (s.advance w).samples with pps := 0 }
        disc := { (s.advance w).disc with windowMeasured := true, lastPhase := some p } } p) := by
  simp only [exec, execPpsEdge]
  rw [State.atInstant_of_occurs _ hw (by simpa using h1)]
  unfold State.ppsRecognised
  dsimp only
  have hm : ¬ ((s.advance w).disc.windowMeasured = true) := by rw [h2]; decide
  rw [if_neg hm]
  have hq : State.phaseNow { s.advance w with samples := { (s.advance w).samples with pps := 0 } } = p := by rw [hp]; rfl
  rw [hq]

/-! ## The strobes of an interval -/

theorem EpochTimer.nextStrobe_at_zero (e : EpochTimer) (h : e.tickPos = 0) : e.nextStrobe = some 0 := by
  rw [EpochTimer.nextStrobe_eq_some]
  refine ⟨by decide, ?_, by intro j hj; omega⟩
  rw [EpochTimer.ahead_iff, h]
  exact .inl (by decide)

/-- Strobe 9 issued, the next strobe is k + 1 after strobe k and none after strobe 9. -/
theorem EpochTimer.nextStrobe_issued (e : EpochTimer) (k : Nat) (hk : k < 10) (ht : e.tickPos = strobePos k) :
    EpochTimer.nextStrobe { e with issued := true } = if k = 9 then none else some (k + 1) := by
  split
  · rw [EpochTimer.nextStrobe_eq_none]
    intro j hj
    rw [Bool.eq_false_iff]
    intro hh
    rw [EpochTimer.ahead_iff] at hh
    simp at hh
    unfold strobePos at *
    omega
  · rw [EpochTimer.nextStrobe_eq_some]
    refine ⟨by omega, ?_, ?_⟩
    · rw [EpochTimer.ahead_iff]
      left
      dsimp only
      unfold strobePos at *
      omega
    · intro j hj
      rw [Bool.eq_false_iff]
      intro hh
      rw [EpochTimer.ahead_iff] at hh
      simp at hh
      unfold strobePos at *
      omega

/-- Near the end of an interval of any length all ten strobes have been issued. -/
theorem EpochTimer.nextStrobe_at_end (e : EpochTimer) (h : 9999470 ≤ e.tickPos) : e.nextStrobe = none := by
  rw [EpochTimer.nextStrobe_eq_none]
  intro k hk
  rw [Bool.eq_false_iff]
  intro hh
  rw [EpochTimer.ahead_iff] at hh
  unfold strobePos at hh
  omega

/-- What is due bounds what may pass. -/
theorem State.mayWait.le_due {s : State} {w d : Nat} (h : s.mayWait w) (hd : d ∈ s.dues) : w ≤ d := by
  have hp := h.2
  unfold State.mayPass at hp
  rw [List.all_eq_true] at hp
  simpa using hp d hd

/-- Time that passes nothing due leaves the next strobe what it was. -/
theorem State.nextStrobe_of_mayWait {s : State} {w : Nat} (hw : s.mayWait w) :
    (s.advance w).epoch.nextStrobe = s.epoch.nextStrobe := by
  by_cases h0 : w = 0
  · subst h0
    rfl
  have he : (s.advance w).epoch = s.epoch.elapse w := by rw [State.advance_epoch, if_neg h0]
  rw [he]
  have back : ∀ p, (s.epoch.elapse w).ahead p = true → s.epoch.ahead p = true := by
    intro p hp
    rw [EpochTimer.ahead_iff] at *
    simp only [EpochTimer.elapse] at hp
    omega
  cases hk : s.epoch.nextStrobe with
  | none =>
    rw [EpochTimer.nextStrobe_eq_none] at *
    intro k hk'
    rw [Bool.eq_false_iff]
    intro hh
    exact absurd (back _ hh) (by rw [hk k hk']; simp)
  | some k =>
    have hd : w ≤ strobePos k - s.epoch.tickPos := hw.le_due (by unfold State.dues; simp [hk])
    rw [EpochTimer.nextStrobe_eq_some] at *
    obtain ⟨a, b, c⟩ := hk
    refine ⟨a, ?_, ?_⟩
    · rw [EpochTimer.ahead_iff] at *
      simp only [EpochTimer.elapse, and_true]
      omega
    · intro j hj
      rw [Bool.eq_false_iff]
      intro hh
      exact absurd (back _ hh) (by rw [c j hj]; simp)

/-! ## Strobes and appends: what they leave alone -/

/-- Everything but timer, axes, assembler, ring and links is the same in both states. -/
structure State.SameSurroundings (u a : State) : Prop where
  powered : u.powered = a.powered
  disc : u.disc = a.disc
  thermTS : u.thermTS = a.thermTS
  thermTO : u.thermTO = a.thermTO
  cal : u.cal = a.cal
  store : u.store = a.store
  resetWaiting : u.resetWaiting = a.resetWaiting
  samples : u.samples = a.samples
  replaced : u.replaced = a.replaced
  earlier : u.earlier = a.earlier
  choices : u.choices = a.choices
  pending : u.pending = a.pending

theorem State.SameSurroundings.refl (s : State) : s.SameSurroundings s := ⟨rfl, rfl, rfl, rfl, rfl, rfl, rfl, rfl, rfl, rfl, rfl, rfl⟩

theorem State.appendRecord_keeps (u : State) (r : Record) :
    (u.appendRecord r).SameSurroundings u ∧ (u.appendRecord r).epoch = u.epoch ∧ (u.appendRecord r).axes = u.axes
      ∧ (u.appendRecord r).asm = u.asm := by
  unfold State.appendRecord State.removeOldest
  dsimp only
  split
  · exact ⟨⟨rfl, rfl, rfl, rfl, rfl, rfl, rfl, rfl, rfl, rfl, rfl, rfl⟩, rfl, rfl, rfl⟩
  · split <;> exact ⟨⟨rfl, rfl, rfl, rfl, rfl, rfl, rfl, rfl, rfl, rfl, rfl, rfl⟩, rfl, rfl, rfl⟩

theorem State.completeIfDue_keeps (u : State) (k : Nat) :
    (u.completeIfDue k).SameSurroundings u ∧ (u.completeIfDue k).epoch = u.epoch ∧ (u.completeIfDue k).axes = u.axes
      ∧ (k ≠ 4 → u.completeIfDue k = u) := by
  unfold State.completeIfDue
  split
  · exact ⟨.refl u, rfl, rfl, fun _ => rfl⟩
  · split
    · next sl _ h4 =>
      unfold State.complete
      have h := State.appendRecord_keeps
        { u with asm := { slot := none, versionLast := (u.recordOf sl).version, baselineChange := false } } (u.recordOf sl)
      refine ⟨⟨h.1.1, h.1.2, h.1.3, h.1.4, h.1.5, h.1.6, h.1.7, h.1.8, h.1.9, h.1.10, h.1.11, h.1.12⟩, h.2.1, h.2.2.1, fun hk => ?_⟩
      simp [hk] at h4
    · exact ⟨.refl u, rfl, rfl, fun _ => rfl⟩

/-! ## Strobes -/

/-- A revised reply changes nothing of a link but the executing command's reply. -/
theorem LinkState.reviseReply_eq (a : Axis) (p : List Byte) (l : LinkState) :
    LinkState.reviseReply a p l = { l with executing := (LinkState.reviseReply a p l).executing } := rfl

/-- Late SET OFFSETs change nothing of a link but the executing command's reply (R56). -/
theorem reviseReplies_get (a : Axis) (c : AxisChannel) (late : List Setting) (links : PerLink LinkState) (l : Link) :
    (reviseReplies a c late links).get l
      = { links.get l with executing := ((reviseReplies a c late links).get l).executing } := by
  induction late with
  | nil => rfl
  | cons t rest ih =>
    unfold reviseReplies
    by_cases h : l = t.link
    · subst h
      rw [PerLink.get_modify_same, LinkState.reviseReply_eq, ih]
    · rw [PerLink.get_modify_other _ h, ← ih]

/-- A link that no late SET OFFSET names keeps its executing command. -/
theorem reviseReplies_other (a : Axis) (c : AxisChannel) {late : List Setting} (links : PerLink LinkState) {l : Link}
    (h : ∀ t ∈ late, t.link ≠ l) : (reviseReplies a c late links).get l = links.get l := by
  induction late with
  | nil => rfl
  | cons t rest ih =>
    unfold reviseReplies
    rw [PerLink.get_modify_other _ (h t List.mem_cons_self).symm]
    exact ih (fun q hq => h q (List.mem_cons_of_mem t hq))

/-- ... and of it neither the command, nor the transfer, nor whether a reply is built. -/
theorem reviseReplies_executing (a : Axis) (c : AxisChannel) (late : List Setting) (links : PerLink LinkState) (l : Link) :
    ∃ f : Executing → Option Reply,
      ((reviseReplies a c late links).get l).executing = (links.get l).executing.map (fun e => { e with reply := f e })
        ∧ ∀ e, (f e).map (·.status) = e.reply.map (·.status) := by
  induction late with
  | nil => exact ⟨fun e => e.reply, by simp [reviseReplies], fun _ => rfl⟩
  | cons t rest ih =>
    obtain ⟨f, hf, hs⟩ := ih
    unfold reviseReplies
    by_cases h : l = t.link
    · subst h
      rw [PerLink.get_modify_same]
      refine ⟨fun e => ((if Kind.ofByte e.command.kind = some .setOffset ∧ axisOfCode (u8At e.command.payload 0) = some a then
          { e with reply := (f e).map (fun r =>
              if r.payload = [] then r else { r with payload := (c.setAll (t :: rest)).offsetPayload }) }
        else { e with reply := f e } : Executing)).reply, ?_, fun e => ?_⟩
      · unfold LinkState.reviseReply
        dsimp only
        rw [hf, Option.map_map]
        congr 1
        funext e
        dsimp only [Function.comp]
        split <;> rfl
      · rw [← hs e]
        dsimp only
        split
        · cases f e with
          | none => rfl
          | some r => dsimp only [Option.map]; split <;> rfl
        · rfl
    · rw [PerLink.get_modify_other _ h]
      exact ⟨f, hf, hs⟩

/-- A late SET OFFSET is one of this instant, and there are such only at strobe 4 (R86). -/
theorem State.lateSettings_prefix (s : State) (x : Axis) (k : Nat) : s.lateSettings x k <+: s.earlier.get x := by
  unfold State.lateSettings
  split
  · have h := (List.takeWhile_prefix (l := (s.earlier.get x).zipIdx) (fun t =>
      decide (t.2 < Config.lateSettings s.choices x) && !(s.links.get t.1.link).replyBegun)).map Prod.fst
    rwa [List.zipIdx_map_fst] at h
  · exact List.nil_prefix

/-- Without a SET OFFSET of this instant, and at every strobe but the fourth, none is late. -/
theorem State.lateSettings_eq_nil {s : State} {x : Axis} {k : Nat} (h : k ≠ 4 ∨ s.earlier.get x = []) :
    s.lateSettings x k = [] := by
  rcases h with h | h
  · simp [State.lateSettings, h]
  · exact List.prefix_nil.mp (h ▸ s.lateSettings_prefix x k)

/-- Where no SET OFFSET is late, a strobe finds the channel as it stands. -/
theorem State.channelAt_eq {s : State} {x : Axis} {k : Nat} (h : k ≠ 4 ∨ s.earlier.get x = []) :
    s.channelAt x k = s.axes.get x := by
  unfold State.channelAt
  rw [State.lateSettings_eq_nil h]
  rfl

/-- The channel a strobe finds is the one that stands or one from before a SET OFFSET of this instant. -/
theorem State.channelAt_mem (s : State) (x : Axis) (k : Nat) :
    s.channelAt x k = s.axes.get x ∨ ∃ t ∈ s.earlier.get x, s.channelAt x k = t.before := by
  unfold State.channelAt
  cases h : (s.lateSettings x k).getLast? with
  | none => exact .inl rfl
  | some t => exact .inr ⟨t, (s.lateSettings_prefix x k).subset (List.mem_of_getLast? h), rfl⟩

/-- Which SET OFFSETs are late depends only on those of this instant, the free value and the frames on the lines. -/
theorem State.lateSettings_congr {s u : State} (x : Axis) (k : Nat) (he : u.earlier = s.earlier) (hc : u.choices = s.choices)
    (ht : ∀ l, (u.links.get l).tx = (s.links.get l).tx) : u.lateSettings x k = s.lateSettings x k := by
  unfold State.lateSettings LinkState.replyBegun
  simp only [he, hc, ht]

/-- One axis's work leaves the other axes' late SET OFFSETs alone. -/
theorem State.strobeAxis_late (s : State) (a x : Axis) (k k' : Nat) (code : Int) (d : Bool) :
    (s.strobeAxis a k code d).lateSettings x k' = s.lateSettings x k' :=
  State.lateSettings_congr x k' rfl rfl (fun l => by
    unfold State.strobeAxis
    dsimp only
    rw [reviseReplies_get])

/-- What a strobe reads of the state besides the slot is the same in both states. -/
structure State.SameStrobe (u s : State) : Prop where
  earlier : u.earlier = s.earlier
  choices : u.choices = s.choices
  links : u.links = s.links
  axes : u.axes = s.axes
  sn : u.epoch.sn = s.epoch.sn

/-- The work of a strobe before its completion changes the channels, the slot, the replies of late SET OFFSETs, and marks of
the instant (R44, R82, R83, R86). -/
def State.strobed (s : State) (k : Nat) (codeX codeY codeZ : Int) (d : Bool) : State :=
  let after (a : Axis) (c : Int) : AxisChannel := (s.channelAt a k).strobe a s.epoch.sn k c d
  let reading (a : Axis) (c : Int) : Reading := (s.channelAt a k).reading a s.epoch.sn k c d
  let revised (a : Axis) (c : Int) (links : PerLink LinkState) : PerLink LinkState :=
    reviseReplies a (after a c) (s.lateSettings a k) links
  let o := s.markIssued.keepReplaced.openSlotIfDue k
  { o with
    axes := ⟨(after .X codeX).setAll (s.lateSettings .X k), (after .Y codeY).setAll (s.lateSettings .Y k),
      (after .Z codeZ).setAll (s.lateSettings .Z k)⟩
    asm := { o.asm with slot := o.asm.slot.map (fun sl =>
      ((sl.enlist (reading .X codeX)).enlist (reading .Y codeY)).enlist (reading .Z codeZ)) }
    links := revised .Z codeZ (revised .Y codeY (revised .X codeX s.links))
    choices := if k = 4 then s.choices + 1 else s.choices }

/-- One axis's work at a strobe, as one update. -/
theorem State.strobeAxis_eq {u : State} {a : Axis} {k : Nat} {late : List Setting} {c : AxisChannel} (code : Int) (d : Bool)
    (hl : u.lateSettings a k = late) (hc : u.channelAt a k = c) :
    u.strobeAxis a k code d =
      { u with
        axes := u.axes.modify a (fun _ => (c.strobe a u.epoch.sn k code d).setAll late)
        asm := { u.asm with slot := u.asm.slot.map (fun sl => sl.enlist (c.reading a u.epoch.sn k code d)) }
        links := reviseReplies a (c.strobe a u.epoch.sn k code d) late u.links } := by
  subst hl hc
  rfl

/-- Another axis's work leaves the channel that a strobe finds alone. -/
theorem State.strobeAxis_channelAt (s : State) {a x : Axis} (h : x ≠ a) (k : Nat) (code : Int) (d : Bool) :
    (s.strobeAxis a k code d).channelAt x k = s.channelAt x k := by
  unfold State.channelAt
  rw [State.strobeAxis_late]
  unfold State.strobeAxis
  dsimp only
  rw [PerAxis.get_modify_other _ h]

/-- All that a strobe does: its readings, and the completion that may follow them (R44, R82 to R85). -/
theorem State.strobeWork_eq (s : State) (k : Nat) (codeX codeY codeZ : Int) (d : Bool) :
    s.strobeWork k codeX codeY codeZ d = (s.strobed k codeX codeY codeZ d).completeIfDue k := by
  unfold State.strobeWork State.strobed
  dsimp only
  congr 1
  have ho : (s.markIssued.keepReplaced.openSlotIfDue k).SameStrobe s := by
    unfold State.openSlotIfDue
    split <;> exact ⟨rfl, rfl, rfl, rfl, rfl⟩
  generalize s.markIssued.keepReplaced.openSlotIfDue k = o at *
  have hl : ∀ x, o.lateSettings x k = s.lateSettings x k := fun x =>
    State.lateSettings_congr x k ho.earlier ho.choices (fun l => by rw [ho.links])
  have hc : ∀ x, o.channelAt x k = s.channelAt x k := fun x => by
    unfold State.channelAt
    rw [hl, ho.axes]
  rw [State.strobeAxis_eq codeZ d (by rw [State.strobeAxis_late, State.strobeAxis_late, hl])
      (by rw [State.strobeAxis_channelAt _ (by decide), State.strobeAxis_channelAt _ (by decide), hc]),
    State.strobeAxis_eq codeY d (by rw [State.strobeAxis_late, hl])
      (by rw [State.strobeAxis_channelAt _ (by decide), hc]), State.strobeAxis_eq codeX d (hl .X) (hc .X)]
  unfold State.countChoice
  rw [← ho.sn, ← ho.links, ← ho.choices]
  by_cases h4 : k = 4 <;> simp only [h4, if_true, if_false, Option.map_map] <;> rfl

/-- The channel of each axis after a strobe: the strobe's work on the channel it finds, and then the late SET OFFSETs. -/
theorem State.strobeWork_axes (s : State) (k : Nat) (codeX codeY codeZ : Int) (d : Bool) (x : Axis) :
    (s.strobeWork k codeX codeY codeZ d).axes.get x
      = ((s.channelAt x k).strobe x s.epoch.sn k
          (match x with
            | .X => codeX
            | .Y => codeY
            | .Z => codeZ) d).setAll (s.lateSettings x k) := by
  rw [State.strobeWork_eq, (State.completeIfDue_keeps _ _).2.2.1]
  cases x <;> rfl

/-- A SET OFFSET leaves the latest reading alone. -/
theorem AxisChannel.setAll_latest (late : List Setting) (c : AxisChannel) : (c.setAll late).latest = c.latest := by
  induction late with
  | nil => rfl
  | cons t rest ih =>
    rw [← ih]
    show ((c.setAll rest).set t.change).latest = _
    unfold AxisChannel.set
    split <;> rfl

/-- The reading of each axis at a strobe. -/
theorem State.strobeWork_latest (s : State) (k : Nat) (codeX codeY codeZ : Int) (d : Bool) (x : Axis) :
    ((s.strobeWork k codeX codeY codeZ d).axes.get x).latest
      = some ((s.channelAt x k).reading x s.epoch.sn k
          (match x with
            | .X => codeX
            | .Y => codeY
            | .Z => codeZ) d) := by
  rw [State.strobeWork_axes, AxisChannel.setAll_latest]
  rfl

/-- SET OFFSETs with accepted indexes keep a channel within Table 3-1. -/
theorem AxisChannel.setAll_sound (late : List Setting) (c : AxisChannel) (h : c.Sound)
    (hl : ∀ t ∈ late, ∀ m, t.change = .fixed m → -6 ≤ m ∧ m ≤ 6) : (c.setAll late).Sound := by
  induction late with
  | nil => exact h
  | cons t rest ih =>
    have i := ih (fun q hq => hl q (by simp [hq]))
    show ((c.setAll rest).set t.change).Sound
    generalize c.setAll rest = e at i
    have ht := hl t (by simp)
    unfold AxisChannel.set
    split
    · exact ⟨i.indexLow, i.indexHigh, i.settle, i.latest⟩
    · next m hm => exact ⟨(ht m hm).1, (ht m hm).2, by simp [settleStrobes], i.latest⟩
    · exact i

/-- Revised replies keep a link in the shape of its tables. -/
theorem reviseReplies_sound (a : Axis) (c : AxisChannel) (late : List Setting) (links : PerLink LinkState) (l : Link)
    (h : (links.get l).Sound) : ((reviseReplies a c late links).get l).Sound := by
  obtain ⟨f, hf, hs⟩ := reviseReplies_executing a c late links l
  have hn : ∀ e, (f e = none ↔ e.reply = none) := by
    intro e; have := hs e; cases h1 : f e <;> cases h2 : e.reply <;> simp [h1, h2] at this ⊢
  rw [reviseReplies_get, hf]
  generalize links.get l = k at *
  refine ⟨h.receiver, h.undecided, ?_, ?_, ?_, h.counters, h.markEntry, h.ignoredZero, h.gapDetail, h.maskBits⟩
  · intro e he
    dsimp only at he
    cases hk : k.executing with
    | none => simp [hk] at he
    | some e0 =>
      simp [hk] at he; subst he
      intro t ht
      obtain ⟨a1, a2, a3, a4, a5, a6⟩ := h.executing e0 hk t ht
      refine ⟨a1, a2, a3, a4, fun hp => ⟨(a5 hp).1, (hn e0).mpr (a5 hp).2⟩, fun hp => ?_⟩
      have := a6 hp
      cases h1 : f e0 with
      | none => rw [(hn e0).mp h1] at this; cases this
      | some r => rfl
  · intro t ht
    have := h.line t ht
    cases hw : t.what with
    | reply o =>
      rw [hw] at this
      cases o with
      | false => trivial
      | true =>
        obtain ⟨e, he, hr⟩ := this
        refine ⟨{ e with reply := f e }, by simp [he], ?_⟩
        cases h1 : f e with
        | none => rw [(hn e).mp h1] at hr; cases hr
        | some r => simp
    | transfer o q =>
      rw [hw] at this
      cases o with
      | false => trivial
      | true =>
        obtain ⟨e, tr, he, h1, h2⟩ := this
        exact ⟨{ e with reply := f e }, tr, by simp [he], h1, h2⟩
    | stream q => trivial
  · intro he; exact h.waitsBehind (by cases hk : k.executing <;> simp [hk] at he ⊢)

/-- The channel a strobe finds lies within Table 3-1. -/
theorem State.channelAt_sound (s : State) (h : s.FieldSound) (x : Axis) (k : Nat) : (s.channelAt x k).Sound := by
  rcases s.channelAt_mem x k with h1 | ⟨t, ht, h1⟩ <;> rw [h1]
  · exact h.axes x
  · exact (h.earlier x t ht).1

/-! ## The ring -/

theorem runsFrom_append (first : Word) (l : List SeqRecord) (q : SeqRecord) :
    runsFrom first (l ++ [q]) = (runsFrom first l && decide (q.seq = first + BitVec.ofNat 32 l.length)) := by
  induction l generalizing first with
  | nil => simp [runsFrom]
  | cons a l ih =>
    simp only [List.cons_append, runsFrom, ih, List.length_cons, Bool.and_assoc]
    congr 2
    have e : first + 1 + BitVec.ofNat 32 l.length = first + BitVec.ofNat 32 (l.length + 1) := by
      rw [BitVec.add_assoc, Nat.add_comm l.length 1, BitVec.ofNat_add]
      rfl
    rw [e]

theorem runsFrom_seq {first : Word} {l : List SeqRecord} (h : runsFrom first l = true) {i : Nat} {q : SeqRecord}
    (hq : l[i]? = some q) : q.seq = first + BitVec.ofNat 32 i := by
  induction l generalizing first i with
  | nil => simp at hq
  | cons a l ih =>
    simp only [runsFrom, Bool.and_eq_true, decide_eq_true_eq] at h
    cases i with
    | zero =>
      simp at hq
      subst hq
      simp [h.1]
    | succ i =>
      simp at hq
      rw [ih h.2 hq, BitVec.add_assoc, Nat.add_comm, BitVec.ofNat_add]
      rfl

theorem Ring.distance_oldest (r : Ring) : r.distance r.oldest = 0 := by simp [Ring.distance]

theorem Ring.Sound.distance_next {r : Ring} (h : r.Sound) : r.distance r.next = r.count := by
  unfold Ring.distance
  rw [h.nextFollows]
  have := h.atMost
  simp
  omega

theorem Ring.Sound.place {r : Ring} (h : r.Sound) (hc : r.count < 4096) (record : Record) : (r.place record).Sound := by
  have hold : r.oldest = (r.place record).oldest := by
    unfold Ring.place Ring.oldest
    cases r.records <;> rfl
  refine ⟨?_, ?_, ?_⟩
  · simp [Ring.place, Ring.count] at *
    omega
  · rw [← hold]
    unfold Ring.place
    dsimp only
    rw [runsFrom_append, h.noGap]
    simp [h.nextFollows, Ring.count]
  · rw [← hold]
    unfold Ring.place Ring.count
    dsimp only
    rw [h.nextFollows]
    simp [Ring.count, BitVec.ofNat_add, BitVec.add_assoc]

theorem Ring.Sound.dropOldest {q : SeqRecord} {rest : List SeqRecord} {n : Word} (h : Ring.Sound ⟨q :: rest, n⟩) :
    Ring.Sound ⟨rest, n⟩ ∧ Ring.oldest ⟨rest, n⟩ = q.seq + 1 := by
  have hr := h.noGap
  have hn := h.nextFollows
  simp only [Ring.oldest, runsFrom, Bool.and_eq_true, decide_eq_true_eq, true_and] at hr
  simp only [Ring.oldest, Ring.count, List.length_cons] at hn
  have ho : Ring.oldest ⟨rest, n⟩ = q.seq + 1 := by
    cases rest with
    | nil => simpa [Ring.oldest] using hn
    | cons a l =>
      simp [runsFrom] at hr
      simp [Ring.oldest, hr.1]
  refine ⟨⟨?_, ?_, ?_⟩, ho⟩
  · have := h.atMost
    simp [Ring.count] at *
    omega
  · rw [ho]
    exact hr
  · rw [ho]
    simp only [Ring.count]
    rw [hn, BitVec.add_assoc, Nat.add_comm, BitVec.ofNat_add]
    rfl

theorem Ring.Sound.append {s : State} (h : s.ring.Sound) (record : Record) : (s.appendRecord record).ring.Sound := by
  unfold State.appendRecord
  dsimp only
  split
  · next hc => exact h.place hc record
  · next hc =>
    unfold State.removeOldest
    split
    · next he => simp [Ring.count, he] at hc
    · next q rest he =>
      have hh : Ring.Sound ⟨q :: rest, s.ring.next⟩ := by rw [← he]; exact h
      refine hh.dropOldest.1.place ?_ record
      have := hh.atMost
      simp [Ring.count] at *
      omega

/-! ## Lookups and lists of readings -/

/-- A clamped temperature's band and its position there (R73). -/
theorem bandOf_range {c : Int} (h1 : -4000 ≤ c) (h2 : c ≤ 4000) :
    bandOf c < 16
      ∧ (c < 4000 → (500 * (bandOf c : Int)) ≤ c + 4000 ∧ c + 4000 < 500 * ((bandOf c : Int) + 1))
      ∧ (c = 4000 → bandOf c = 15) ∧ 0 ≤ positionIn c (bandOf c) ∧ positionIn c (bandOf c) ≤ 500 := by
  unfold bandOf positionIn tableSpan knotStep
  have := Int.emod_add_mul_ediv (c + 4000) 500
  have := Int.emod_nonneg (c + 4000) (b := 500) (by omega)
  have := Int.emod_lt_of_pos (c + 4000) (b := 500) (by omega)
  omega

/-- A lookup depends on the channel's health and held value alone. -/
theorem Row.lookup_congr (r : Row) {t u : Thermometer} (h : t.health = u.health) (hv : t.held = u.held) :
    r.lookup t = r.lookup u := by simp [Row.lookup, Thermometer.offered, h, hv]

/-- A knot of a row whose terms lie within a bound, or no knot at all. -/
theorem Row.knot_range {r : Row} {bound : Int} (h0 : 0 ≤ bound)
    (h : ∀ k ∈ r.knots.toList, -bound ≤ k.g ∧ k.g ≤ bound ∧ -bound ≤ k.o ∧ k.o ≤ bound) (i : Nat) :
    -bound ≤ (r.knot i).g ∧ (r.knot i).g ≤ bound ∧ -bound ≤ (r.knot i).o ∧ (r.knot i).o ≤ bound := by
  unfold Row.knot
  rw [Vector.getD]
  by_cases hi : i < r.knots.toArray.size
  · rw [Array.getD, dif_pos hi]
    apply h
    simp
  · rw [Array.getD, dif_neg hi]
    dsimp only
    omega

theorem axisMean_of_none_valid {bias : Int} {l : List Reading} (h : l.filter Reading.isValid = []) :
    axisMean bias l = none := by simp [axisMean, validCount, h]

theorem axisMean_of_valid {bias : Int} {l : List Reading} (h : l.filter Reading.isValid ≠ []) :
    axisMean bias l
      = some (roundDiv (((l.filter Reading.isValid).map (fieldValue bias)).sum) (l.filter Reading.isValid).length) := by
  unfold axisMean validCount
  cases hl : l.filter Reading.isValid with
  | nil => exact absurd hl h
  | cons a b => simp

/-- STEPPED: two readings of the list differ in their index (R94). -/
theorem isStepped_iff (l : List Reading) : isStepped l = true ↔ ∃ r ∈ l, ∃ q ∈ l, r.index ≠ q.index := by
  cases l with
  | nil => simp [isStepped]
  | cons r rest =>
    simp only [isStepped, List.any_eq_true]
    constructor
    · rintro ⟨x, hx, h⟩
      exact ⟨x, by simp [hx], r, by simp, by simpa using h⟩
    · rintro ⟨a, ha, b, hb, h⟩
      by_cases h1 : a.index = r.index
      · refine ⟨b, ?_, ?_⟩
        · rcases List.mem_cons.mp hb with rfl | h2
          · exact absurd h1 h
          · exact h2
        · simp
          intro e
          exact h (by rw [h1, e])
      · refine ⟨a, ?_, by simpa using h1⟩
        rcases List.mem_cons.mp ha with rfl | h2
        · exact absurd rfl h1
        · exact h2

end Sys2Proof.Machine
end

