-- ==== Sys2Proof/Laws/Links.lean ====
section
/-! SUPPORT. One station link: what its named operations do, said once for each: changes of one link, the passing of time,
the answers of a command, the arrival of a station command, the choice of the transmitter, and the byte layouts. -/

namespace Sys2Proof.Machine

/-! ## Changes of one link -/

@[simp] theorem State.onLink_get_same (s : State) (l : Link) (f : LinkState → LinkState) :
    (s.onLink l f).links.get l = f (s.links.get l) := PerLink.get_modify_same _ _ _

@[simp] theorem State.onLink_get_other (s : State) {l m : Link} (h : m ≠ l) (f : LinkState → LinkState) :
    (s.onLink l f).links.get m = s.links.get m := PerLink.get_modify_other _ h _

theorem State.onLink_onLink (s : State) (l : Link) (f g : LinkState → LinkState) :
    (s.onLink l f).onLink l g = s.onLink l (fun k => g (f k)) := by
  unfold State.onLink
  rw [PerLink.modify_modify]

theorem State.onLink_congr (s : State) (l : Link) (f g : LinkState → LinkState)
    (h : f (s.links.get l) = g (s.links.get l)) : s.onLink l f = s.onLink l g := by
  unfold State.onLink
  rw [PerLink.modify_congr _ _ _ _ h]

/-- A change of one link keeps a property that each link has, if it keeps it on that link. -/
theorem State.onLink_forall (p : LinkState → Prop) (s : State) (l : Link) (f : LinkState → LinkState)
    (h : ∀ m, p (s.links.get m)) (hf : p (f (s.links.get l))) : ∀ m, p ((s.onLink l f).links.get m) := by
  intro m
  by_cases hm : m = l
  · subst hm
    simpa using hf
  · rw [State.onLink_get_other s hm]
    exact h m

/-! ## Time on a link -/

theorem LinkState.elapse_zero (k : LinkState) : k.elapse 0 = k := by
  unfold LinkState.elapse Receiver.elapse
  simp

theorem State.advance_links (s : State) (n : Nat) (l : Link) :
    (s.advance n).links.get l = (s.links.get l).elapse n := by
  unfold State.advance
  split
  · next h => rw [h, LinkState.elapse_zero]
  · exact PerLink.get_map _ _ _

theorem State.advance_executing (s : State) (n : Nat) (l : Link) :
    ((s.advance n).links.get l).executing = (s.links.get l).executing := by rw [State.advance_links]; rfl

theorem State.advance_waiting (s : State) (n : Nat) (l : Link) :
    ((s.advance n).links.get l).waiting = (s.links.get l).waiting := by rw [State.advance_links]; rfl

theorem State.advance_rx_state (s : State) (n : Nat) (l : Link) :
    ((s.advance n).links.get l).rx.state = (s.links.get l).rx.state := by rw [State.advance_links]; rfl

theorem State.advance_partialFrame (s : State) (n : Nat) (l : Link) :
    ((s.advance n).links.get l).rx.partialFrame = (s.links.get l).rx.partialFrame := by rw [State.advance_links]; rfl

theorem State.advance_crc (s : State) (n : Nat) (l : Link) :
    ((s.advance n).links.get l).rx.crc = (s.links.get l).rx.crc := by rw [State.advance_links]; rfl

theorem State.advance_undecided (s : State) (n : Nat) (l : Link) :
    ((s.advance n).links.get l).rx.undecided = (s.links.get l).rx.undecided := by rw [State.advance_links]; rfl

/-- Time does not change what can reach a link. -/
@[simp] theorem State.hears_advance (s : State) (n : Nat) (l : Link) : (s.advance n).hears l = s.hears l := by
  simp only [State.hears, State.listening, State.advance_rx_state, State.advance_undecided]

/-- A byte, a frame or a command can reach a link outside BREAK on which no byte is undecided (R145, R151). -/
theorem State.hears_iff (s : State) (l : Link) :
    s.hears l = true ↔ (s.links.get l).rx.state ≠ .brk ∧ (s.links.get l).rx.undecided = false := by
  simp [State.hears, State.listening]

/-! ## Answers -/

/-- A command that has just entered the executing slot and is answered stands answered there. -/
theorem State.enter_answer (s : State) (l : Link) (c : Command) (st : Status) (p : List Byte) :
    (s.onLink l (LinkState.enter c)).answer l st p = s.holding l c st p := by
  unfold State.answer
  rw [State.onLink_onLink]
  rfl

/-- The same with a change of the link between, one that leaves the slot alone. -/
theorem State.enter_change_answer (s : State) (l : Link) (c : Command) (f : LinkState → LinkState) (st : Status)
    (p : List Byte) (hf : ∀ k, f (LinkState.enter c k) = LinkState.enter c (f k)) :
    ((s.onLink l (LinkState.enter c)).onLink l f).answer l st p = (s.onLink l f).holding l c st p := by
  unfold State.answer State.holding
  rw [State.onLink_onLink, State.onLink_onLink, State.onLink_onLink]
  congr 1
  funext k
  rw [hf]
  rfl

/-- The same with a change of other blocks between. -/
theorem State.enter_work_answer (s : State) (l : Link) (c : Command) (g : State → State) (st : Status) (p : List Byte)
    (hg : ∀ (u : State) (f : LinkState → LinkState), g (u.onLink l f) = (g u).onLink l f) :
    (g (s.onLink l (LinkState.enter c))).answer l st p = (g s).holding l c st p := by
  rw [hg, State.enter_answer]

/-- A notice for the two other links. -/
theorem State.raiseOthers_eq (s : State) (l : Link) (n : Notice) :
    s.raiseOthers l n = { s with links :=
      ⟨if .A = l then s.links.a else LinkState.raise n s.links.a,
       if .B = l then s.links.b else LinkState.raise n s.links.b,
       if .C = l then s.links.c else LinkState.raise n s.links.c⟩ } := by
  cases l <;> rfl

/-! ## The arrival of a station command -/

@[simp] theorem Kind.ofByte_code (k : Kind) : Kind.ofByte k.code = some k := by cases k <;> decide

/-- Every row of a station command is the handing over of its command to a link that hears it (R151, R152). -/
theorem exec_arrival_eq {i : Instr} {w : Nat} {l : Link} {c : Command} {s : State} (ha : i.arrival = some (w, l, c)) :
    exec i s = s.atInstant w (fun s => s.hears l) (fun s => s.handOver l c) := by
  cases i
  case unknownKind w' l' k t p =>
    simp only [Instr.arrival] at ha
    split at ha
    · next h =>
      cases ha
      simp only [exec, execUnknownKind, h, Bool.and_true]
    · cases ha
  all_goals first
    | (cases ha; done)
    | (cases ha; rfl)

theorem exec_arrival {i : Instr} {w : Nat} {l : Link} {c : Command} {s : State} (ha : i.arrival = some (w, l, c))
    (hw : s.mayWait w) (hh : s.hears l = true) : exec i s = .next ((s.advance w).handOver l c) := by
  rw [exec_arrival_eq ha, State.atInstant_of_occurs _ hw (by simpa using hh)]

/-- During a break, and while a byte is undecided, no command arrives (R145, R151, R172). -/
theorem exec_arrival_unheard {i : Instr} {w : Nat} {l : Link} {c : Command} {s : State}
    (ha : i.arrival = some (w, l, c)) (hh : s.hears l = false) : exec i s = .next s := by
  rw [exec_arrival_eq ha, State.atInstant_of_not_occurs _ (by simpa using hh)]

/-- With the executing slot empty the command is taken at once (R152). -/
theorem exec_arrival_taken {i : Instr} {w : Nat} {l : Link} {c : Command} {s : State}
    (ha : i.arrival = some (w, l, c)) (hw : s.takesAt w l) : exec i s = .next ((s.advance w).begin l c) := by
  rw [exec_arrival ha hw.1 hw.2.2]
  unfold State.handOver
  rw [State.advance_executing, hw.2.1]

/-- A command of a known kind and of that kind's length goes to its owning block (R153). -/
theorem exec_arrival_kind {i : Instr} {w : Nat} {l : Link} {c : Command} {k : Kind} {s : State}
    (ha : i.arrival = some (w, l, c)) (hw : s.takesAt w l) (hk : Kind.ofByte c.kind = some k)
    (hp : c.payload.length = k.payloadLength) :
    exec i s = .next (((s.advance w).onLink l (LinkState.enter c)).takeKind l k c.tag c.payload) := by
  rw [exec_arrival_taken ha hw]
  unfold State.begin State.execute
  rw [hk]
  dsimp only
  rw [if_pos hp]

/-! ## The transmitter's choice (R157) -/

theorem LinkState.choice_reply {n : Word} {k : LinkState} (h : k.choice n = some .reply) :
    ∃ e r, k.executing = some e ∧ e.reply = some r ∧ k.tx = none := by
  unfold LinkState.choice LinkState.streamChoice at h
  split at h
  · next hc =>
    simp only [Bool.and_eq_true, Option.isNone_iff_eq_none] at hc
    split at h
    · split at h <;> cases h
    · next e he =>
      split at h
      · next hr => exact ⟨e, _, he, hr, hc.2⟩
      · split at h
        · cases h
        · split at h <;> cases h
      · split at h <;> cases h
  · cases h

theorem LinkState.choice_transfer {n : Word} {k : LinkState} (h : k.choice n = some .transfer) :
    ∃ e t, k.executing = some e ∧ e.transfer = some t ∧ t.phase = .running ∧ k.tx = none := by
  unfold LinkState.choice LinkState.streamChoice at h
  split at h
  · next hc =>
    simp only [Bool.and_eq_true, Option.isNone_iff_eq_none] at hc
    split at h
    · split at h <;> cases h
    · next e he =>
      split at h
      · cases h
      · next ht =>
        split at h
        · next hq =>
          simp only [LinkState.transferReady, Bool.and_eq_true, decide_eq_true_eq] at hq
          exact ⟨e, _, he, ht, hq.1.1, hc.2⟩
        · split at h <;> cases h
      · split at h <;> cases h
  · cases h

/-! ## The receiver -/

/-- The second byte in CHECK decides the frame (R148). -/
theorem Receiver.takeCheck_eq (r : Receiver) (b len kind tag hi : Byte) (rest : List Byte)
    (h : r.partialFrame = some (len :: kind :: tag :: (rest ++ [hi]))) (hl : rest.length = len.toNat) :
    r.takeCheck b = if hi ++ b = r.crc then .good ⟨kind, tag, rest⟩ else .bad := by
  unfold Receiver.takeCheck
  simp only [h, Option.getD_some]
  have e1 : lenOf ((len :: kind :: tag :: (rest ++ [hi])) ++ [b]) = len.toNat := rfl
  have e2 : ((len :: kind :: tag :: (rest ++ [hi])) ++ [b]).length = 3 + len.toNat + 2 := by simp; omega
  have e3 : u16At ((len :: kind :: tag :: (rest ++ [hi])) ++ [b]) (3 + len.toNat) = hi ++ b := by
    unfold u16At u8At
    rw [← hl]
    have a1 : (len :: kind :: tag :: (rest ++ [hi]) ++ [b]).getD (3 + rest.length) 0 = hi := by
      rw [show 3 + rest.length = rest.length + 3 by omega]
      simp [List.getD]
    have a2 : (len :: kind :: tag :: (rest ++ [hi]) ++ [b]).getD (3 + rest.length + 1) 0 = b := by
      rw [show 3 + rest.length + 1 = (rest.length + 1) + 3 by omega]
      simp [List.getD]
    rw [a1, a2]
  have e4 : commandOf ((len :: kind :: tag :: (rest ++ [hi])) ++ [b]) = ⟨kind, tag, rest⟩ := by
    unfold commandOf
    rw [e1]
    congr 1
    simp [← hl]
  simp only [e1]
  rw [e2, if_neg (by omega), e3, e4]

/-! ## Byte layouts -/

theorem u32At_be32 (v : Word) (q : List Byte) : u32At (be32 v ++ q) 0 = v := by
  unfold u32At u16At u8At be32
  simp only [List.cons_append, List.getD_cons_zero, List.getD_cons_succ, List.nil_append]
  apply BitVec.eq_of_getLsbD_eq
  intro i hi
  simp only [BitVec.getLsbD_append, BitVec.getLsbD_extractLsb']
  by_cases h : i < 8
  · simp [h, show i < 16 by omega]
  · by_cases h2 : i < 16
    · simp [h, h2, show i - 8 < 8 by omega, show 8 + (i - 8) = i by omega]
    · by_cases h3 : i < 24
      · simp [h2, show i - 16 < 8 by omega, show 16 + (i - 16) = i by omega]
      · simp [h2, show ¬ i - 16 < 8 by omega, show i - 16 - 8 < 8 by omega, show 24 + (i - 16 - 8) = i by omega]

theorem u16At_be16 (v : Half) (q : List Byte) : u16At (be16 v ++ q) 0 = v := by
  unfold u16At u8At be16
  simp only [List.cons_append, List.getD_cons_zero, List.getD_cons_succ, List.nil_append]
  apply BitVec.eq_of_getLsbD_eq
  intro i hi
  simp only [BitVec.getLsbD_append, BitVec.getLsbD_extractLsb']
  by_cases h : i < 8
  · simp [h]
  · simp [h, show i - 8 < 8 by omega, show 8 + (i - 8) = i by omega]

theorem s32At_be32 (v : Word) (q : List Byte) : s32At (be32 v ++ q) 0 = v.toInt := by
  unfold s32At
  rw [u32At_be32]

theorem u32At_cons (b : Byte) (p : List Byte) (i : Nat) : u32At (b :: p) (i + 1) = u32At p i := by
  unfold u32At u16At u8At
  simp [List.getD]

theorem getD_append_length (p q : List Byte) (i n : Nat) (h : p.length = n) :
    (p ++ q).getD (n + i) 0 = q.getD i 0 := by
  subst h
  simp [List.getD, List.getElem?_append_right]

theorem u8At_append (p q : List Byte) (n : Nat) (h : p.length = n) : u8At (p ++ q) n = u8At q 0 :=
  getD_append_length p q 0 n h

theorem u16At_append (p q : List Byte) (n : Nat) (h : p.length = n) : u16At (p ++ q) n = u16At q 0 := by
  unfold u16At u8At
  have h0 := getD_append_length p q 0 n h
  rw [Nat.add_zero] at h0
  rw [h0, getD_append_length p q 1 n h]

theorem u32At_append (p q : List Byte) (n : Nat) (h : p.length = n) : u32At (p ++ q) n = u32At q 0 := by
  unfold u32At u16At u8At
  have h0 := getD_append_length p q 0 n h
  rw [Nat.add_zero] at h0
  rw [h0, getD_append_length p q 1 n h, getD_append_length p q 2 n h, Nat.add_assoc,
    getD_append_length p q (2 + 1) n h]

theorem rowOfCode_rowByte (r : RowName) : rowOfCode (rowByte r) = some r := by cases r <;> rfl

theorem rowOfCode_undefined (b : Byte) (h : 3 < b.toNat) : rowOfCode b = none := by
  unfold rowOfCode
  split <;> first | omega | rfl

theorem axisOfCode_axisByte (a : Axis) : axisOfCode (axisByte a) = some a := by cases a <;> rfl

theorem Table.row_setRow (t : Table) (r m : RowName) (v : Row) :
    (t.setRow r v).row m = if m = r then v else t.row m := by cases r <;> cases m <;> rfl

/-- The kinds pending, bit by bit (section 11.1). -/
theorem bits_of_nine : ∀ a b c d e f g h i : Bool, ∀ j : Fin 16,
    (BitVec.ofNat 16 (bitAt 0 a + bitAt 1 b + bitAt 2 c + bitAt 3 d + bitAt 4 e + bitAt 5 f + bitAt 6 g + bitAt 7 h
      + bitAt 8 i)).getLsbD j = [a, b, c, d, e, f, g, h, i].getD j false := by decide

/-! ## Edit writes and store writes -/

/-- An edit write of the holder in EDITING whose checks pass (R109 to R111). -/
theorem State.editWrite_accepted (a : State) (l : Link) (c : Command) (sh written : CalSet) (idle : Nat)
    (f : CalSet → Option CalSet) (he : a.cal.edit = .editing l sh idle) (hf : f sh = some written) :
    (a.onLink l (LinkState.enter c)).editWrite l f
      = State.holding { a with cal := { a.cal with edit := .editing l written 1200000000 } } l c .ok [] := by
  unfold State.editWrite
  simp only [State.onLink_cal, he, if_true, hf]
  exact State.enter_work_answer a l c (fun u => u.setEdit (.editing l written idleTicks)) _ _ (fun _ _ => rfl)

/-- One whose checks fail. -/
theorem State.editWrite_rejected (a : State) (l : Link) (c : Command) (sh : CalSet) (idle : Nat)
    (f : CalSet → Option CalSet) (he : a.cal.edit = .editing l sh idle) (hf : f sh = none) :
    (a.onLink l (LinkState.enter c)).editWrite l f
      = State.holding { a with cal := { a.cal with edit := .editing l sh 1200000000 } } l c .range [] := by
  unfold State.editWrite
  simp only [State.onLink_cal, he, if_true, hf]
  exact State.enter_work_answer a l c (fun u => u.setEdit (.editing l sh idleTicks)) _ _ (fun _ _ => rfl)

/-- A write requested while one is in flight, or while a reset waits, waits (R119, R123). -/
theorem State.requestWrite_waits (u : State) (h : u.store.inFlight ≠ none ∨ u.resetWaiting = true) :
    u.requestWrite .commit = { u with store := { u.store with commitWaiting := true } }
      ∧ u.requestWrite .baseline = { u with store := { u.store with baselinePending := true } } := by
  have hc : u.canStartWrite = false := by
    unfold State.canStartWrite
    rcases h with h1 | h1
    · cases hx : u.store.inFlight <;> simp_all
    · simp [h1]
  simp [State.requestWrite, hc]

/-- One requested with nothing in flight and no reset waiting starts at once (R119). -/
theorem State.requestWrite_starts (u : State) (k : WriteKind) (h : u.store.inFlight = none)
    (hr : u.resetWaiting = false) : u.requestWrite k = u.startWrite k := by
  cases k <;> simp [State.requestWrite, State.canStartWrite, h, hr]

/-- What the choice of the next write does (R120, R123). -/
theorem State.chooseWrite_cases (s : State) :
    (s.resetWaiting = true → s.chooseWrite = s)
      ∧ (s.resetWaiting = false → s.store.commitWaiting = true →
          s.chooseWrite = State.startWrite { s with store := { s.store with commitWaiting := false } } .commit)
      ∧ (s.resetWaiting = false → s.store.commitWaiting = false → s.store.baselinePending = true →
          s.chooseWrite = State.startWrite { s with store := { s.store with baselinePending := false } } .baseline)
      ∧ (s.resetWaiting = false → s.store.commitWaiting = false → s.store.baselinePending = false →
          s.chooseWrite = s) := by
  unfold State.chooseWrite
  refine ⟨?_, ?_, ?_, ?_⟩ <;> intros <;> simp_all

end Sys2Proof.Machine
end

