-- ==== Sys2Proof/Laws/Frames.lean ====
section
/-! SUPPORT. What no station command, no frame and no store write touches, and how a station command can change the Epoch
Timer: the two frames that the invariants rest on. -/

namespace Sys2Proof.Machine

/-! ## Queue, ring, clock, thermometers, power, reset, samples and slot -/

/-- The state that only time, the field and the pins change is the same in both states. -/
structure State.CommandFrame (u s : State) : Prop where
  pending : u.pending = s.pending
  ring : u.ring = s.ring
  disc : u.disc = s.disc
  thermTS : u.thermTS = s.thermTS
  thermTO : u.thermTO = s.thermTO
  powered : u.powered = s.powered
  resetWaiting : u.resetWaiting = s.resetWaiting
  samples : u.samples = s.samples
  slot : u.asm.slot = s.asm.slot

namespace State.CommandFrame

theorem refl (s : State) : s.CommandFrame s := ⟨rfl, rfl, rfl, rfl, rfl, rfl, rfl, rfl, rfl⟩

theorem trans {a b c : State} (h : a.CommandFrame b) (g : b.CommandFrame c) : a.CommandFrame c :=
  ⟨h.pending.trans g.pending, h.ring.trans g.ring, h.disc.trans g.disc, h.thermTS.trans g.thermTS,
    h.thermTO.trans g.thermTO, h.powered.trans g.powered, h.resetWaiting.trans g.resetWaiting,
    h.samples.trans g.samples, h.slot.trans g.slot⟩

theorem onLink (s : State) (l : Link) (f : LinkState → LinkState) : (s.onLink l f).CommandFrame s := ⟨rfl, rfl, rfl, rfl, rfl, rfl, rfl, rfl, rfl⟩

theorem answer (s : State) (l : Link) (st : Status) (p : List Byte) : (s.answer l st p).CommandFrame s := ⟨rfl, rfl, rfl, rfl, rfl, rfl, rfl, rfl, rfl⟩

theorem requestWrite (s : State) (k : WriteKind) : (s.requestWrite k).CommandFrame s := by
  unfold State.requestWrite State.startWrite
  cases k <;> dsimp only <;> split <;> exact ⟨rfl, rfl, rfl, rfl, rfl, rfl, rfl, rfl, rfl⟩

theorem chooseWrite (s : State) : s.chooseWrite.CommandFrame s := by
  unfold State.chooseWrite State.startWrite
  repeat' (first | exact ⟨rfl, rfl, rfl, rfl, rfl, rfl, rfl, rfl, rfl⟩ | split)

theorem endWrite (s : State) (w : StoreWrite) (success : Bool) : (s.endWrite w success).CommandFrame s := by
  unfold State.endWrite
  dsimp only
  refine (chooseWrite _).trans ?_
  unfold State.commitSuccess State.commitFault
  repeat' (first | exact ⟨rfl, rfl, rfl, rfl, rfl, rfl, rfl, rfl, rfl⟩ | split)

theorem takeKind (s : State) (l : Link) (k : Kind) (tag : Byte) (p : List Byte) :
    (s.takeKind l k tag p).CommandFrame s := by
  unfold State.takeKind
  cases k <;> dsimp only
  case commit =>
    unfold State.takeCommit
    split
    · exact ⟨rfl, rfl, rfl, rfl, rfl, rfl, rfl, rfl, rfl⟩
    · split
      · exact (requestWrite _ _).trans ⟨rfl, rfl, rfl, rfl, rfl, rfl, rfl, rfl, rfl⟩
      · exact ⟨rfl, rfl, rfl, rfl, rfl, rfl, rfl, rfl, rfl⟩
    · exact ⟨rfl, rfl, rfl, rfl, rfl, rfl, rfl, rfl, rfl⟩
  case setBaseline =>
    unfold State.takeSetBaseline
    dsimp only
    split
    · refine (answer _ _ _ _).trans ((requestWrite _ _).trans ?_)
      cases l <;> exact ⟨rfl, rfl, rfl, rfl, rfl, rfl, rfl, rfl, rfl⟩
    · exact ⟨rfl, rfl, rfl, rfl, rfl, rfl, rfl, rfl, rfl⟩
  case readRecords => unfold State.takeReadRecords; dsimp only; split <;> exact ⟨rfl, rfl, rfl, rfl, rfl, rfl, rfl, rfl, rfl⟩
  case stream => unfold State.takeStream; split <;> exact ⟨rfl, rfl, rfl, rfl, rfl, rfl, rfl, rfl, rfl⟩
  case seek => unfold State.takeSeek State.seekNewest State.seekNumber; repeat' (first | exact ⟨rfl, rfl, rfl, rfl, rfl, rfl, rfl, rfl, rfl⟩ | split)
  case readStatus => exact ⟨rfl, rfl, rfl, rfl, rfl, rfl, rfl, rfl, rfl⟩
  case readNotice => unfold State.takeReadNotice; dsimp only; split <;> exact ⟨rfl, rfl, rfl, rfl, rfl, rfl, rfl, rfl, rfl⟩
  case setNoticeMask => exact ⟨rfl, rfl, rfl, rfl, rfl, rfl, rfl, rfl, rfl⟩
  case mark => exact ⟨rfl, rfl, rfl, rfl, rfl, rfl, rfl, rfl, rfl⟩
  case readMark => unfold State.takeReadMark; dsimp only; split <;> exact ⟨rfl, rfl, rfl, rfl, rfl, rfl, rfl, rfl, rfl⟩
  case setMarkLine => unfold State.takeSetMarkLine; split <;> exact ⟨rfl, rfl, rfl, rfl, rfl, rfl, rfl, rfl, rfl⟩
  case labelNextSecond => unfold State.takeLabel; dsimp only; repeat' (first | exact ⟨rfl, rfl, rfl, rfl, rfl, rfl, rfl, rfl, rfl⟩ | split)
  case setOffset => unfold State.takeSetOffset; dsimp only; repeat' (first | exact ⟨rfl, rfl, rfl, rfl, rfl, rfl, rfl, rfl, rfl⟩ | split)
  case openEdit => unfold State.takeOpenEdit; repeat' (first | exact ⟨rfl, rfl, rfl, rfl, rfl, rfl, rfl, rfl, rfl⟩ | split)
  case writeKnot => unfold State.takeWriteKnot State.editWrite; repeat' (first | exact ⟨rfl, rfl, rfl, rfl, rfl, rfl, rfl, rfl, rfl⟩ | split)
  case writeBand => unfold State.takeWriteBand State.editWrite; repeat' (first | exact ⟨rfl, rfl, rfl, rfl, rfl, rfl, rfl, rfl, rfl⟩ | split)
  case writeBias => unfold State.takeWriteBias State.editWrite; repeat' (first | exact ⟨rfl, rfl, rfl, rfl, rfl, rfl, rfl, rfl, rfl⟩ | split)
  case writeHoldoverRate => unfold State.takeWriteHoldover State.editWrite; repeat' (first | exact ⟨rfl, rfl, rfl, rfl, rfl, rfl, rfl, rfl, rfl⟩ | split)
  case abandon => unfold State.takeAbandon; repeat' (first | exact ⟨rfl, rfl, rfl, rfl, rfl, rfl, rfl, rfl, rfl⟩ | split)
  case lockCalibration => unfold State.takeLock; split <;> exact ⟨rfl, rfl, rfl, rfl, rfl, rfl, rfl, rfl, rfl⟩
  case readTable =>
    unfold State.takeReadTable State.readShadow State.answerTable
    repeat' (first | exact ⟨rfl, rfl, rfl, rfl, rfl, rfl, rfl, rfl, rfl⟩ | split)

theorem begin (s : State) (l : Link) (c : Command) : (s.begin l c).CommandFrame s := by
  unfold State.begin State.execute
  split
  · exact ⟨rfl, rfl, rfl, rfl, rfl, rfl, rfl, rfl, rfl⟩
  · split
    · exact (takeKind _ _ _ _ _).trans (onLink s l _)
    · exact ⟨rfl, rfl, rfl, rfl, rfl, rfl, rfl, rfl, rfl⟩

theorem handOver (s : State) (l : Link) (c : Command) : (s.handOver l c).CommandFrame s := by
  unfold State.handOver
  split
  · exact begin _ _ _
  · exact onLink _ _ _

theorem acceptFrame (s : State) (l : Link) (c : Command) : (s.acceptFrame l c).CommandFrame s :=
  (handOver _ _ _).trans (onLink _ _ _)

theorem endReply (s : State) (l : Link) : (s.endReply l).CommandFrame s := by
  unfold State.endReply State.leave
  repeat' (first | exact ⟨rfl, rfl, rfl, rfl, rfl, rfl, rfl, rfl, rfl⟩ | exact (begin _ _ _).trans ⟨rfl, rfl, rfl, rfl, rfl, rfl, rfl, rfl, rfl⟩ | split)

theorem beginTransferFrame (s : State) (l : Link) : (s.beginTransferFrame l).CommandFrame s := by
  unfold State.beginTransferFrame
  dsimp only
  split <;> exact ⟨rfl, rfl, rfl, rfl, rfl, rfl, rfl, rfl, rfl⟩

theorem beginStreamFrame (s : State) (l : Link) : (s.beginStreamFrame l).CommandFrame s := by
  unfold State.beginStreamFrame
  dsimp only
  split <;> exact ⟨rfl, rfl, rfl, rfl, rfl, rfl, rfl, rfl, rfl⟩

end State.CommandFrame

/-! ## The Epoch Timer under a station command -/

/-- A station command leaves the Epoch Timer alone, arms a label where no conflict stands, or meets a conflict (R13,
R14). -/
def State.LabelOnly (u s : State) : Prop :=
  u.epoch = s.epoch ∨ (s.epoch.conflict = false ∧ ∃ v, u.epoch = { s.epoch with armed := some v })
    ∨ u.epoch = { s.epoch with armed := none, conflict := true }

/-- No label moves a strobe. -/
theorem State.LabelOnly.nextStrobe {u s : State} (h : u.LabelOnly s) : u.epoch.nextStrobe = s.epoch.nextStrobe := by
  rcases h with h | ⟨_, v, h⟩ | h <;> rw [h] <;> rfl

theorem State.requestWrite_epoch (s : State) (k : WriteKind) : (s.requestWrite k).epoch = s.epoch := by
  unfold State.requestWrite State.startWrite
  cases k <;> dsimp only <;> split <;> rfl

theorem State.endWrite_epoch (s : State) (w : StoreWrite) (success : Bool) : (s.endWrite w success).epoch = s.epoch := by
  have ch : ∀ u : State, u.chooseWrite.epoch = u.epoch := by
    intro u
    unfold State.chooseWrite State.startWrite
    repeat' (first | rfl | split)
  unfold State.endWrite
  dsimp only
  rw [ch]
  unfold State.commitSuccess State.commitFault
  repeat' (first | rfl | split)

theorem State.takeKind_labelOnly (s : State) (l : Link) (k : Kind) (tag : Byte) (p : List Byte) :
    (s.takeKind l k tag p).LabelOnly s := by
  unfold State.takeKind
  cases k <;> dsimp only
  case labelNextSecond =>
    unfold State.takeLabel
    dsimp only
    split
    · exact .inl rfl
    · next hc =>
      split
      · exact .inr (.inl ⟨by simpa using hc, _, rfl⟩)
      · split
        · exact .inl rfl
        · exact .inr (.inr rfl)
  all_goals refine .inl ?_
  case commit =>
    unfold State.takeCommit
    repeat' (first | rfl | exact State.requestWrite_epoch _ _ | split)
  case setBaseline =>
    unfold State.takeSetBaseline
    dsimp only
    split
    · rw [show ∀ u st p, (State.answer u l st p).epoch = u.epoch from fun _ _ _ => rfl, State.requestWrite_epoch]
      cases l <;> rfl
    · rfl
  case readRecords => unfold State.takeReadRecords; dsimp only; split <;> rfl
  case stream => unfold State.takeStream; split <;> rfl
  case seek => unfold State.takeSeek State.seekNewest State.seekNumber; repeat' (first | rfl | split)
  case readStatus => rfl
  case readNotice => unfold State.takeReadNotice; dsimp only; split <;> rfl
  case setNoticeMask => rfl
  case mark => rfl
  case readMark => unfold State.takeReadMark; dsimp only; split <;> rfl
  case setMarkLine => unfold State.takeSetMarkLine; split <;> rfl
  case setOffset => unfold State.takeSetOffset; dsimp only; repeat' (first | rfl | split)
  case openEdit => unfold State.takeOpenEdit; repeat' (first | rfl | split)
  case writeKnot => unfold State.takeWriteKnot State.editWrite; repeat' (first | rfl | split)
  case writeBand => unfold State.takeWriteBand State.editWrite; repeat' (first | rfl | split)
  case writeBias => unfold State.takeWriteBias State.editWrite; repeat' (first | rfl | split)
  case writeHoldoverRate => unfold State.takeWriteHoldover State.editWrite; repeat' (first | rfl | split)
  case abandon => unfold State.takeAbandon; repeat' (first | rfl | split)
  case lockCalibration => unfold State.takeLock; split <;> rfl
  case readTable => unfold State.takeReadTable State.readShadow State.answerTable; repeat' (first | rfl | split)

theorem State.begin_labelOnly (s : State) (l : Link) (c : Command) : (s.begin l c).LabelOnly s := by
  unfold State.begin State.execute
  split
  · exact .inl rfl
  · split
    · exact State.takeKind_labelOnly (s.onLink l (LinkState.enter c)) _ _ _ _
    · exact .inl rfl

theorem State.handOver_labelOnly (s : State) (l : Link) (c : Command) : (s.handOver l c).LabelOnly s := by
  unfold State.handOver
  split
  · exact State.begin_labelOnly _ _ _
  · exact .inl rfl

end Sys2Proof.Machine
end

