-- ==== Sys2Proof/WellFormed.lean ====
section
/-! DEFINITION. Which operands a command can carry at all: the ranges the manual gives the values that come from
outside the MV-3. Meanings are total; an ill-formed command is one that no station, line or converter can send. -/

namespace Sys2Proof

/-- A converter code lies within −8,388,608..+8,388,607 (R42). -/
def codeInRange (c : Int) : Bool := decide (-8388608 ≤ c ∧ c ≤ 8388607)

/-- A conversion delivers −32,768..+32,767 or NO-CONVERSION (R61). -/
def resultInRange : ConvResult → Bool
  | .value v => decide (-32768 ≤ v ∧ v ≤ 32767)
  | .noConversion => true

/-- A frame carries at most 64 payload bytes (R142). -/
def payloadFits (p : List Byte) : Bool := decide (p.length ≤ 64)

/-- The 21 KIND bytes that name a command (R13, R53, R80, R107 to R118, R133, R162, R169, R175 to R183). -/
def kindNamesCommand (k : Byte) : Bool :=
  decide (k.toNat ∈ [0x10, 0x11, 0x12, 0x20, 0x21, 0x22, 0x23, 0x24, 0x25, 0x30, 0x40,
    0x50, 0x51, 0x52, 0x53, 0x54, 0x55, 0x56, 0x57, 0x58, 0x59])

/-- The operands lie in the ranges the manual gives them. -/
def Instr.wellFormed : Instr → Bool
  | .strobe cx cy cz _ => codeInRange cx && codeInRange cy && codeInRange cz
  | .conversionEnd _ r => resultInRange r
  | .unknownKind _ _ k _ p => !kindNamesCommand k && payloadFits p
  | .readRecords _ _ _ p => payloadFits p
  | .stream _ _ _ p => payloadFits p
  | .seek _ _ _ p => payloadFits p
  | .readStatus _ _ _ p => payloadFits p
  | .readNotice _ _ _ p => payloadFits p
  | .setNoticeMask _ _ _ p => payloadFits p
  | .mark _ _ _ p => payloadFits p
  | .readMark _ _ _ p => payloadFits p
  | .setMarkLine _ _ _ p => payloadFits p
  | .labelNextSecond _ _ _ p => payloadFits p
  | .setOffset _ _ _ p => payloadFits p
  | .openEdit _ _ _ p => payloadFits p
  | .writeKnot _ _ _ p => payloadFits p
  | .writeBand _ _ _ p => payloadFits p
  | .writeBias _ _ _ p => payloadFits p
  | .writeHoldoverRate _ _ _ p => payloadFits p
  | .commit _ _ _ p => payloadFits p
  | .abandon _ _ _ p => payloadFits p
  | .lockCalibration _ _ _ p => payloadFits p
  | .readTable _ _ _ p => payloadFits p
  | .setBaseline _ _ _ p => payloadFits p
  | .powerOnReset => true
  | .resetRequest _ => true
  | .warmReset => true
  | .ordinaryBoundary => true
  | .epochOutEnd => true
  | .midpointMark => true
  | .ppsEdge _ => true
  | .markLineEdge _ => true
  | .idleExpiry => true
  | .storeWriteEnd _ _ => true
  | .readyChange _ _ _ => true
  | .framingError _ _ => true
  | .interByteTimeout _ => true
  | .badFrame _ _ _ => true
  | .goodFrame _ _ _ => true
  | .lineBreak _ _ => true
  | .breakEnd _ _ => true
  | .replyBegin _ => true
  | .replySent _ _ => true
  | .transferFrameBegin _ => true
  | .transferFrameDelivered _ _ => true
  | .streamFrameBegin _ => true
  | .streamFrameDelivered _ _ => true
  | .byteReceived _ _ _ => true
  | .powerLoss _ _ => true

end Sys2Proof
end

