-- ==== Sys2Proof/Laws/PerInstr.lean ====
section
/-! SUPPORT. One statement about every command as syntax, with one lemma for each constructor: the operands of a well-formed
command stay within what a frame and a converter can carry (R42, R61, R142, R153). -/

namespace Sys2Proof.Laws

/-- A well-formed row of a station command brings at most 64 payload bytes (R142), and its KIND byte is one of the 21 that
name a command exactly when the queue knows it (R153). -/
def OperandsBounded.Statement (i : Instr) : Prop :=
  i.wellFormed = true → ∀ w l c, i.arrival = some (w, l, c) →
    c.payload.length ≤ 64 ∧ kindNamesCommand c.kind = (Machine.Kind.ofByte c.kind).isSome

/-- The two lists of KIND bytes, of WellFormed and of the queue, are one. -/
theorem kindNamesCommand_eq : ∀ b : Byte, kindNamesCommand b = (Machine.Kind.ofByte b).isSome := by decide

/-- A row that is no station command. -/
theorem OperandsBounded.of_no_arrival {i : Instr} (h : i.arrival = none) : OperandsBounded.Statement i := by
  intro _ w l c hc
  rw [h] at hc
  cases hc

/-- A row that is one. -/
theorem OperandsBounded.of_payload {i : Instr} (h : i.wellFormed = true → ∀ w l c, i.arrival = some (w, l, c) →
    payloadFits c.payload = true) : OperandsBounded.Statement i :=
  fun hw w l c hc => ⟨of_decide_eq_true (h hw w l c hc), kindNamesCommand_eq c.kind⟩

theorem OperandsBounded.powerOnReset : OperandsBounded.Statement .powerOnReset :=
  OperandsBounded.of_no_arrival rfl

theorem OperandsBounded.resetRequest (w : Nat) : OperandsBounded.Statement (.resetRequest w) :=
  OperandsBounded.of_no_arrival rfl

theorem OperandsBounded.warmReset : OperandsBounded.Statement .warmReset :=
  OperandsBounded.of_no_arrival rfl

theorem OperandsBounded.ordinaryBoundary : OperandsBounded.Statement .ordinaryBoundary :=
  OperandsBounded.of_no_arrival rfl

theorem OperandsBounded.epochOutEnd : OperandsBounded.Statement .epochOutEnd :=
  OperandsBounded.of_no_arrival rfl

theorem OperandsBounded.strobe (x : Int) (y : Int) (z : Int) (d : Bool) : OperandsBounded.Statement (.strobe x y z d) :=
  OperandsBounded.of_no_arrival rfl

theorem OperandsBounded.midpointMark : OperandsBounded.Statement .midpointMark :=
  OperandsBounded.of_no_arrival rfl

theorem OperandsBounded.ppsEdge (w : Nat) : OperandsBounded.Statement (.ppsEdge w) :=
  OperandsBounded.of_no_arrival rfl

theorem OperandsBounded.conversionEnd (ch : Channel) (r : ConvResult) : OperandsBounded.Statement (.conversionEnd ch r) :=
  OperandsBounded.of_no_arrival rfl

theorem OperandsBounded.markLineEdge (w : Nat) : OperandsBounded.Statement (.markLineEdge w) :=
  OperandsBounded.of_no_arrival rfl

theorem OperandsBounded.idleExpiry : OperandsBounded.Statement .idleExpiry :=
  OperandsBounded.of_no_arrival rfl

theorem OperandsBounded.storeWriteEnd (w : Nat) (b : Bool) : OperandsBounded.Statement (.storeWriteEnd w b) :=
  OperandsBounded.of_no_arrival rfl

theorem OperandsBounded.readyChange (w : Nat) (l : Link) (v : Bool) : OperandsBounded.Statement (.readyChange w l v) :=
  OperandsBounded.of_no_arrival rfl

theorem OperandsBounded.framingError (w : Nat) (l : Link) : OperandsBounded.Statement (.framingError w l) :=
  OperandsBounded.of_no_arrival rfl

theorem OperandsBounded.interByteTimeout (l : Link) : OperandsBounded.Statement (.interByteTimeout l) :=
  OperandsBounded.of_no_arrival rfl

theorem OperandsBounded.badFrame (w : Nat) (l : Link) (b : Byte) : OperandsBounded.Statement (.badFrame w l b) :=
  OperandsBounded.of_no_arrival rfl

theorem OperandsBounded.goodFrame (w : Nat) (l : Link) (b : Byte) : OperandsBounded.Statement (.goodFrame w l b) :=
  OperandsBounded.of_no_arrival rfl

theorem OperandsBounded.lineBreak (w : Nat) (l : Link) : OperandsBounded.Statement (.lineBreak w l) :=
  OperandsBounded.of_no_arrival rfl

theorem OperandsBounded.breakEnd (w : Nat) (l : Link) : OperandsBounded.Statement (.breakEnd w l) :=
  OperandsBounded.of_no_arrival rfl

theorem OperandsBounded.replyBegin (l : Link) : OperandsBounded.Statement (.replyBegin l) :=
  OperandsBounded.of_no_arrival rfl

theorem OperandsBounded.replySent (w : Nat) (l : Link) : OperandsBounded.Statement (.replySent w l) :=
  OperandsBounded.of_no_arrival rfl

theorem OperandsBounded.transferFrameBegin (l : Link) : OperandsBounded.Statement (.transferFrameBegin l) :=
  OperandsBounded.of_no_arrival rfl

theorem OperandsBounded.transferFrameDelivered (w : Nat) (l : Link) : OperandsBounded.Statement (.transferFrameDelivered w l) :=
  OperandsBounded.of_no_arrival rfl

theorem OperandsBounded.streamFrameBegin (l : Link) : OperandsBounded.Statement (.streamFrameBegin l) :=
  OperandsBounded.of_no_arrival rfl

theorem OperandsBounded.streamFrameDelivered (w : Nat) (l : Link) : OperandsBounded.Statement (.streamFrameDelivered w l) :=
  OperandsBounded.of_no_arrival rfl

theorem OperandsBounded.unknownKind (w : Nat) (l : Link) (k t : Byte) (p : List Byte) :
    OperandsBounded.Statement (.unknownKind w l k t p) := OperandsBounded.of_payload (by
  intro h _ _ _ hc
  simp only [Instr.arrival] at hc
  split at hc
  · cases hc
    simp only [Instr.wellFormed, Bool.and_eq_true] at h
    exact h.2
  · cases hc)

theorem OperandsBounded.readRecords (w : Nat) (l : Link) (t : Byte) (p : List Byte) :
    OperandsBounded.Statement (.readRecords w l t p) := OperandsBounded.of_payload (by intro h _ _ _ hc; cases hc; exact h)

theorem OperandsBounded.stream (w : Nat) (l : Link) (t : Byte) (p : List Byte) :
    OperandsBounded.Statement (.stream w l t p) := OperandsBounded.of_payload (by intro h _ _ _ hc; cases hc; exact h)

theorem OperandsBounded.seek (w : Nat) (l : Link) (t : Byte) (p : List Byte) :
    OperandsBounded.Statement (.seek w l t p) := OperandsBounded.of_payload (by intro h _ _ _ hc; cases hc; exact h)

theorem OperandsBounded.readStatus (w : Nat) (l : Link) (t : Byte) (p : List Byte) :
    OperandsBounded.Statement (.readStatus w l t p) := OperandsBounded.of_payload (by intro h _ _ _ hc; cases hc; exact h)

theorem OperandsBounded.readNotice (w : Nat) (l : Link) (t : Byte) (p : List Byte) :
    OperandsBounded.Statement (.readNotice w l t p) := OperandsBounded.of_payload (by intro h _ _ _ hc; cases hc; exact h)

theorem OperandsBounded.setNoticeMask (w : Nat) (l : Link) (t : Byte) (p : List Byte) :
    OperandsBounded.Statement (.setNoticeMask w l t p) := OperandsBounded.of_payload (by intro h _ _ _ hc; cases hc; exact h)

theorem OperandsBounded.mark (w : Nat) (l : Link) (t : Byte) (p : List Byte) :
    OperandsBounded.Statement (.mark w l t p) := OperandsBounded.of_payload (by intro h _ _ _ hc; cases hc; exact h)

theorem OperandsBounded.readMark (w : Nat) (l : Link) (t : Byte) (p : List Byte) :
    OperandsBounded.Statement (.readMark w l t p) := OperandsBounded.of_payload (by intro h _ _ _ hc; cases hc; exact h)

theorem OperandsBounded.setMarkLine (w : Nat) (l : Link) (t : Byte) (p : List Byte) :
    OperandsBounded.Statement (.setMarkLine w l t p) := OperandsBounded.of_payload (by intro h _ _ _ hc; cases hc; exact h)

theorem OperandsBounded.labelNextSecond (w : Nat) (l : Link) (t : Byte) (p : List Byte) :
    OperandsBounded.Statement (.labelNextSecond w l t p) := OperandsBounded.of_payload (by intro h _ _ _ hc; cases hc; exact h)

theorem OperandsBounded.setOffset (w : Nat) (l : Link) (t : Byte) (p : List Byte) :
    OperandsBounded.Statement (.setOffset w l t p) := OperandsBounded.of_payload (by intro h _ _ _ hc; cases hc; exact h)

theorem OperandsBounded.openEdit (w : Nat) (l : Link) (t : Byte) (p : List Byte) :
    OperandsBounded.Statement (.openEdit w l t p) := OperandsBounded.of_payload (by intro h _ _ _ hc; cases hc; exact h)

theorem OperandsBounded.writeKnot (w : Nat) (l : Link) (t : Byte) (p : List Byte) :
    OperandsBounded.Statement (.writeKnot w l t p) := OperandsBounded.of_payload (by intro h _ _ _ hc; cases hc; exact h)

theorem OperandsBounded.writeBand (w : Nat) (l : Link) (t : Byte) (p : List Byte) :
    OperandsBounded.Statement (.writeBand w l t p) := OperandsBounded.of_payload (by intro h _ _ _ hc; cases hc; exact h)

theorem OperandsBounded.writeBias (w : Nat) (l : Link) (t : Byte) (p : List Byte) :
    OperandsBounded.Statement (.writeBias w l t p) := OperandsBounded.of_payload (by intro h _ _ _ hc; cases hc; exact h)

theorem OperandsBounded.writeHoldoverRate (w : Nat) (l : Link) (t : Byte) (p : List Byte) :
    OperandsBounded.Statement (.writeHoldoverRate w l t p) := OperandsBounded.of_payload (by intro h _ _ _ hc; cases hc; exact h)

theorem OperandsBounded.commit (w : Nat) (l : Link) (t : Byte) (p : List Byte) :
    OperandsBounded.Statement (.commit w l t p) := OperandsBounded.of_payload (by intro h _ _ _ hc; cases hc; exact h)

theorem OperandsBounded.abandon (w : Nat) (l : Link) (t : Byte) (p : List Byte) :
    OperandsBounded.Statement (.abandon w l t p) := OperandsBounded.of_payload (by intro h _ _ _ hc; cases hc; exact h)

theorem OperandsBounded.lockCalibration (w : Nat) (l : Link) (t : Byte) (p : List Byte) :
    OperandsBounded.Statement (.lockCalibration w l t p) := OperandsBounded.of_payload (by intro h _ _ _ hc; cases hc; exact h)

theorem OperandsBounded.readTable (w : Nat) (l : Link) (t : Byte) (p : List Byte) :
    OperandsBounded.Statement (.readTable w l t p) := OperandsBounded.of_payload (by intro h _ _ _ hc; cases hc; exact h)

theorem OperandsBounded.setBaseline (w : Nat) (l : Link) (t : Byte) (p : List Byte) :
    OperandsBounded.Statement (.setBaseline w l t p) := OperandsBounded.of_payload (by intro h _ _ _ hc; cases hc; exact h)

theorem OperandsBounded.byteReceived (w : Nat) (l : Link) (b : StopBit) :
    OperandsBounded.Statement (.byteReceived w l b) :=
  OperandsBounded.of_no_arrival rfl

theorem OperandsBounded.powerLoss (w : Nat) (f : LossImage) : OperandsBounded.Statement (.powerLoss w f) :=
  OperandsBounded.of_no_arrival rfl

end Sys2Proof.Laws
end

