-- ==== Sys2Proof/Tests/Slice0.lean ====
section
/-! SUPPORT. The model's own tests: the smoke tests of WellFormed, the worked cases of the manual, one step each, and for
every statement with hypotheses a concrete state and operands that meet them, clause by clause. -/

namespace Sys2Proof.Tests

open Sys2Proof.Machine

/-! ## Well-formed commands: one ill-formed term for each check -/

theorem test_wf_strobe_code_low : Instr.wellFormed (.strobe (-8388609) 0 0 false) = false := by decide
theorem test_wf_strobe_code_high : Instr.wellFormed (.strobe 0 8388608 0 false) = false := by decide
theorem test_wf_strobe_code_z : Instr.wellFormed (.strobe 0 0 8388608 true) = false := by decide
theorem test_wf_strobe_ends : Instr.wellFormed (.strobe (-8388608) 8388607 0 false) = true := by decide
theorem test_wf_conversion_low : Instr.wellFormed (.conversionEnd .TS (.value (-32769))) = false := by decide
theorem test_wf_conversion_high : Instr.wellFormed (.conversionEnd .TO (.value 32768)) = false := by decide
theorem test_wf_no_conversion : Instr.wellFormed (.conversionEnd .TO .noConversion) = true := by decide
theorem test_wf_unknown_is_known : Instr.wellFormed (.unknownKind 0 .A 0x59 1 []) = false := by decide
theorem test_wf_unknown : Instr.wellFormed (.unknownKind 0 .A 0x5A 1 []) = true := by decide
theorem test_wf_payload : Instr.wellFormed (.seek 0 .A 1 (List.replicate 65 0)) = false := by decide
theorem test_wf_payload_64 : Instr.wellFormed (.seek 0 .A 1 (List.replicate 64 0)) = true := by decide

/-! ## Helpers: small states near the reset state -/

/-- The state a command answers. -/
def after (i : Instr) (s : State) : State :=
  match exec i s with
  | .next t => t
  | .fault _ => s
  | .refused _ => s

/-- What a state must show for a wait: `mayWait` as one value. -/
def waits (s : State) (w : Nat) : Bool := s.powered && s.mayPass w

theorem waits_ok {s : State} {w : Nat} (h : waits s w = true) : s.mayWait w := by
  simpa [waits, State.mayWait] using h

theorem takes_ok {s : State} {w : Nat} {l : Link}
    (h : (waits s w && (s.links.get l).executing.isNone && s.hears l) = true) : s.takesAt w l := by
  simp only [Bool.and_eq_true, Option.isNone_iff_eq_none] at h
  exact ⟨waits_ok h.1.1, h.1.2, h.2⟩

/-- The state after reset, moved on to tick position p of interval 0, with no conversion in progress. -/
def moved (p : Nat) : State :=
  { State.reset with
    epoch := { EpochTimer.atReset with tickPos := p, epochOutLeft := 100000 - p }
    thermTS := { Thermometer.atReset with conversion := none }
    thermTO := { Thermometer.atReset with conversion := none }
    samples := ⟨2, 2, 2⟩ }

/-- The state after reset, with one link changed. -/
def linked (l : Link) (f : LinkState → LinkState) : State := (moved 0).onLink l f

/-- The state after reset, with the edit state given. -/
def edited (e : Edit) : State := { moved 0 with cal := { State.reset.cal with edit := e } }

/-- A clock state with no edge measured yet in the open window. -/
def clocked (c : ClockState) (p : Nat) : State := { moved p with disc := { Discipline.atReset with clock := c } }

def cal0 : CalSet := State.reset.cal.active

def axis0 : AxisRecord := ⟨none, 10, 0, 0, false, false, false, false, false, false⟩

def record0 : Record :=
  ⟨7, .labelled, .track, 100, 3, none, .none, none, .none, false, false, false, false, false, false, ⟨axis0, axis0, axis0⟩⟩

def capture0 : Capture :=
  ⟨.line, 9, 5, .unlabelled, .free, 100, none, .none,
    ⟨⟨none, false, false, false, false⟩, ⟨none, false, false, false, false⟩, ⟨none, false, false, false, false⟩⟩⟩

/-- A ring of two records, 4 and 5, and next sequence 6. -/
def ring2 : Ring := ⟨[⟨4, record0⟩, ⟨5, record0⟩], 6⟩

def ringed (l : Link) (f : LinkState → LinkState) : State := { linked l f with ring := ring2 }

def command0 (k : Byte) : Executing := ⟨⟨k, 7, []⟩, none, none⟩

/-! ## Worked cases of the manual -/

/-- Tables 1-2 and 4-8: OSC knots 9 and 10. -/
def oscRow : Row := (Row.default.setKnot 9 ⟨0, -85000⟩).setKnot 10 ⟨0, -61000⟩

/-- Table 4-7: part of the Z row. -/
def zRow : Row :=
  (((((Row.default.setKnot 5 ⟨-12000, 3400⟩).setKnot 6 ⟨-9500, 2150⟩).setKnot 14 ⟨8200, -4050⟩).setKnot 15
    ⟨9900, -4600⟩).setKnot 16 ⟨11300, -5200⟩).setBand 14 .hold |>.setBand 15 .void

def channel (h : Health) (v : Option Int) : Thermometer := ⟨none, none, v, h, 0⟩

/-- Table 4-8, line by line. -/
theorem test_lookup_interp : zRow.lookup (channel .good (some (-1237))) = ⟨-10685, 2742, false, false⟩ := by decide
theorem test_lookup_hold : zRow.lookup (channel .held (some 3120)) = ⟨8200, -4050, false, false⟩ := by decide
theorem test_lookup_void_clamped : zRow.lookup (channel .good (some 4350)) = ⟨0, 0, true, true⟩ := by decide
theorem test_lookup_none : zRow.lookup (channel .none none) = ⟨0, 0, false, true⟩ := by decide
theorem test_lookup_osc : oscRow.lookup (channel .good (some 512)) = ⟨0, -84424, false, false⟩ := by decide

/-- The clock of Tables 1-2 and 1-3 at the instant of boundary B+1. -/
def table1_3 : State :=
  let s := moved 9999999
  { s with
    epoch := { s.epoch with acc := 91300, pendingAdj := some 2, len := 9999999, sn := 41 }
    disc := { s.disc with clock := .track, yDisc := 430750, trained := true, u := 300 }
    thermTO := channel .good (some 512)
    cal := { s.cal with active := { cal0 with table := { cal0.table with osc := oscRow } } } }

/-- Table 1-3, boundary B+1: L = 10,000,006 and A = 37,626. -/
theorem test_boundary_length :
    let t := (after .ordinaryBoundary table1_3).epoch
    t.len = 10000006 ∧ t.acc = 37626 ∧ t.yTemp = -84424 ∧ t.sn = 42 ∧ t.pendingAdj = none := by decide

/-- R3: y = −84,424 on A = 20,000 gives L = 9,999,999 and A = 35,576. -/
theorem test_boundary_negative :
    let s := { table1_3 with
      epoch := { table1_3.epoch with acc := 20000, pendingAdj := none }, disc := { table1_3.disc with yDisc := 0 } }
    (after .ordinaryBoundary s).epoch.len = 9999999 ∧ (after .ordinaryBoundary s).epoch.acc = 35576 := by decide

/-- R28: p = −37 in TRACK (Table 2-6, the returning edge in HOLDOVER too). -/
def beforeBoundary (c : ClockState) : State :=
  let s := moved 9999963
  { s with disc := { s.disc with clock := c, yDisc := 430750, trained := true, u := 3300, windowArrived := false } }

theorem test_edge_track :
    let t := after (.ppsEdge 0) (beforeBoundary .track)
    t.disc.yDisc = 199500 ∧ t.epoch.pendingAdj = some (-19) ∧ t.disc.u = 3700 := by decide

theorem test_edge_holdover_returns :
    let t := after (.ppsEdge 0) (beforeBoundary .holdover)
    t.disc.clock = .track ∧ t.disc.u = 3700 ∧ t.links.b.notices.clock = some .track := by decide

/-- Table 2-6: the third missing window in a run ends TRACK. -/
theorem test_midpoint_holdover :
    let s := { clocked .track 5000000 with
      epoch := { (moved 5000000).epoch with sn := 102 }
      disc := { Discipline.atReset with clock := .track, missingRun := 2, u := 300, trained := true } }
    let t := after .midpointMark s
    t.disc.clock = .holdover ∧ t.disc.missingRun = 0 ∧ t.disc.u = 300 ∧ t.links.c.notices.clock = some .holdover := by
  decide

/-- Table 2-6, boundary 103: HOLDOVER adds h to U. -/
theorem test_boundary_grows :
    let s := { table1_3 with disc := { table1_3.disc with clock := .holdover } }
    (after .ordinaryBoundary s).disc.u = 305 := by decide

/-- Table 1-4: an ADVANCE step 40,000 ticks before boundary 7201. -/
theorem test_step_advance :
    let s := { clocked .free 9960004 with
      epoch := { (moved 9960004).epoch with len := 10000004, sn := 7200, pendingAdj := some 1 }
      disc := { Discipline.atReset with windowArrived := false } }
    let t := after (.ppsEdge 0) s
    t.epoch.sn = 7201 ∧ t.epoch.tickPos = 0 ∧ t.epoch.epochOutLeft = 100000 ∧ t.epoch.pendingAdj = none
      ∧ t.links.a.notices.step = some (.phase, 7201) ∧ t.disc.clock = .acquire := by decide

/-- The first edge in FREE, at the very tick at which the boundary is due. -/
def boundaryDue : State :=
  { clocked .free 10000000 with
    epoch := { (moved 10000000).epoch with sn := 7200, acc := 20000, pendingAdj := some 1 }
    disc := { Discipline.atReset with yDisc := 430750, windowArrived := false } }

/-- R101: at p = 0 an armed label applies at the boundary taken first: LABEL-STEP only where that is the step boundary. -/
theorem test_step_at_the_boundary :
    let s := { boundaryDue with epoch := { boundaryDue.epoch with armed := some 9000 } }
    let t := after (.ppsEdge 0) s
    let u := after (.ppsEdge 0) (after .ordinaryBoundary s)
    t.epoch.sn = 9000 ∧ t.links.a.notices.step = some (.phaseAndLabel, 9000)
      ∧ t.asm.slot.map (fun sl => (sl.timeStep, sl.labelStep)) = some (true, true)
      ∧ u.epoch.sn = 9000 ∧ u.links.a.notices.step = some (.phase, 9000)
      ∧ u.asm.slot.map (fun sl => (sl.timeStep, sl.labelStep)) = some (true, false) := by decide

/-- Table 2-7, window 204: the fourth outlier in a run orders a REPEAT step. -/
theorem test_step_repeat :
    let s := { clocked .track 2405 with
      epoch := { (moved 2405).epoch with sn := 204 }
      disc := { Discipline.atReset with clock := .track, outlierRun := 3, missingRun := 1, outliers := 3, trained := true } }
    let t := after (.ppsEdge 0) s
    t.epoch.sn = 204 ∧ t.disc.clock = .acquire ∧ t.disc.outliers = 4 ∧ t.disc.outlierRun = 0
      ∧ t.links.a.notices.clock = some .acquire ∧ t.links.a.notices.step = some (.phase, 204) := by decide

/-- Table 2-7, window 200: a first outlier is counted, and U is kept. -/
theorem test_edge_outlier :
    let s := { clocked .track 2400 with disc := { Discipline.atReset with clock := .track, u := 300 } }
    let t := after (.ppsEdge 0) s
    t.disc.outlierRun = 1 ∧ t.disc.u = 300 ∧ t.disc.clock = .track := by decide

/-- R9: the pulse ends at tick 100,000. -/
theorem test_epoch_out_end :
    (after .epochOutEnd (moved 0)).epoch.tickPos = 100000 ∧ (after .epochOutEnd (moved 0)).epoch.epochOutLeft = 0 := by
  decide

/-- Axis Z of Table 3-4 at strobe k of an interval, n = `index`, settle count `settle`. -/
def zStrobe (index : Int) (settle : Nat) (mode : OffsetMode) (k : Nat) : State :=
  { moved (strobePos k) with
    axes := { State.reset.axes with z := ⟨index, mode, settle, none⟩ }
    asm := ⟨none, 0, false⟩ }

/-- Table 3-4, k = 7: a residual above +6,000,000 steps up, and carries the index it was converted under. -/
theorem test_strobe_steps :
    let t := (after (.strobe 0 0 6004880 false) (zStrobe 0 0 .auto 7)).axes.z
    t.index = 1 ∧ t.settle = 3 ∧ t.latest = some ⟨.Z, 0, 7, 6004880, 0, false, false, false, false⟩ := by decide

/-- Table 3-6, k = 2: SAT and LIMIT at index +6. -/
theorem test_strobe_limit :
    let t := (after (.strobe 0 0 8388607 false) (zStrobe 6 0 .auto 2)).axes.z
    t.index = 6 ∧ t.settle = 0 ∧ t.latest = some ⟨.Z, 0, 2, 8388607, 6, true, false, true, false⟩ := by decide

/-- R48: exactly +6,000,000 causes no step; R42: the code −8,388,608 is clamped. -/
theorem test_strobe_edge_values :
    (after (.strobe 0 0 6000000 false) (zStrobe 0 0 .auto 7)).axes.z.index = 0
      ∧ (after (.strobe 0 0 (-8388608) false) (zStrobe 0 0 .fixed 7)).axes.z.latest
        = some ⟨.Z, 0, 7, -8388607, 0, true, false, false, false⟩ := by decide

def zReading (k : Nat) (r n : Int) (settle : Bool) : Reading := ⟨.Z, 0, k, r, n, false, settle, false, false⟩

/-- The Z list of Table 5-3 before strobe 4. -/
def zList : List Reading :=
  [zReading 5 5812300 0 false, zReading 6 5930115 0 false, zReading 7 6004880 0 false, zReading 8 2215040 1 true,
    zReading 9 3706925 1 true, zReading 0 4012360 1 true, zReading 1 4051200 1 false, zReading 2 4060415 1 false,
    zReading 3 4072090 1 false]

/-- Axis Z at the limit in FIXED, and at the instant of strobe 4, before it in the queue, AUTO from A and FIXED 2 from B. -/
def offsetAtStrobe : State :=
  after (.setOffset 0 .B 2 [2, 1, 2]) (after (.setOffset 0 .A 1 [2, 0, 0]) (zStrobe 6 0 .fixed 4))

def table5_3 : State :=
  let s := moved 4500000
  { s with
    axes := { s.axes with z := ⟨1, .auto, 0, none⟩ }
    thermTS := channel .good (some (-1237))
    cal := { s.cal with
      active := { cal0 with table := { cal0.table with z := zRow }, bias := ⟨0, 0, 54000000⟩ }
      baseline := ⟨0, 0, -1250000⟩ }
    asm := ⟨some ⟨true, 0, some .unlabelled, false, false, ⟨[], [], zList⟩, false⟩, 0, false⟩ }

/-- The worked field case of section 5.2.1: Z = 58,747,851 pT, 10 readings, 7 valid, STEPPED. -/
theorem test_record_value :
    ((after (.strobe 0 0 4079640 false) table5_3).ring.records.head?.map (fun q => q.record.axes.z))
      = some ⟨some 58747851, 10, 7, 1, false, true, false, false, false, false⟩ := by decide

/-- R102: the first record takes number 0, the slot closes, and an axis without valid reading has no value. -/
theorem test_record_append :
    let t := after (.strobe 8388607 0 0 false) (moved 4500000)
    t.ring.next = 1 ∧ t.asm.slot = none ∧ t.ring.count = 1
      ∧ (t.ring.records.head?.map (fun q => (q.seq, q.record.sn, q.record.axes.x.value))) = some (0, 0, none) := by decide

/-- Table 4-4: HELD at the 300th fault, STALE at the 301st, with a TEMP notice. -/
def faulted (n : Nat) : State :=
  { moved 200000 with
    thermTS := { channel .held (some 812) with conversion := some 0, faults := n } }

theorem test_conversion_stale :
    let t := after (.conversionEnd .TS (.value (-7420))) (faulted 300)
    t.thermTS.health = .stale ∧ t.thermTS.held = some 812 ∧ t.thermTS.faults = 301
      ∧ t.links.a.notices.temp = some (.TS, .stale) := by decide

theorem test_conversion_held :
    let t := after (.conversionEnd .TS .noConversion) (faulted 299)
    t.thermTS.health = .held ∧ t.thermTS.faults = 300 ∧ t.links.a.notices.temp = none := by decide

/-! ### Station links -/

/-- R143: the check value of the polynomial's usual register (0xFFFF start, no reflection) over "123456789". -/
theorem test_crc : crcOf [0x31, 0x32, 0x33, 0x34, 0x35, 0x36, 0x37, 0x38, 0x39] = 0x29B1 := by decide +kernel

/-- A link's receiver in the given state. -/
def receiving (st : RxState) (p : Option (List Byte)) : State :=
  linked .B (fun k => { k with rx := ⟨st, p, crcOf (p.getD []), 0, false⟩ })

/-- Table 8-6, line by line: noise, SYNC1 twice, SYNC2, a LEN of 80, a framing error, TAG of an empty frame. -/
theorem test_rx_noise : (after (.byteReceived 0 .B (.marking 0x55)) (receiving .hunt none)).links.b.rx.state = .hunt := by decide
theorem test_rx_sync : (after (.byteReceived 0 .B (.marking 0xC3)) (receiving .hunt none)).links.b.rx.state = .sync2 := by decide
theorem test_rx_sync_again : (after (.byteReceived 0 .B (.marking 0xC3)) (receiving .sync2 none)).links.b.rx.state = .sync2 := by
  decide
theorem test_rx_header :
    (after (.byteReceived 0 .B (.marking 0x3C)) (receiving .sync2 none)).links.b.rx = ⟨.header, some [], 0xFFFF, 0, false⟩ := by decide
theorem test_rx_len_80 :
    let t := (after (.badFrame 0 .B 0x50) (receiving .header (some []))).links.b
    t.rx.state = .hunt ∧ t.badFrames = 1 := by decide
theorem test_rx_framing :
    let t := (after (.framingError 0 .B) (receiving .hunt none)).links.b
    t.rx.state = .hunt ∧ t.framingErrors = 1 ∧ t.badFrames = 0 := by decide
theorem test_rx_tag :
    (after (.byteReceived 0 .B (.marking 0x07)) (receiving .header (some [0, 0x20]))).links.b.rx.state = .check := by decide

/-- The low CRC byte of the frame 00 20 07, handed to the queue: READ STATUS is answered. -/
def crcAwaited : State :=
  linked .B (fun k => { k with
    rx := ⟨.check, some [0, 0x20, 7, (crcOf [0, 0x20, 7]).extractLsb' 8 8], crcOf [0, 0x20, 7], 0, false⟩ })

theorem test_rx_good_frame :
    let t := (after (.goodFrame 0 .B ((crcOf [0, 0x20, 7]).extractLsb' 0 8)) crcAwaited).links.b
    t.rx.state = .hunt ∧ (t.executing.bind (·.reply)).map (fun r => (r.status, r.payload.length)) = some (.ok, 103) := by
  decide +kernel

theorem test_rx_wrong_crc :
    let b := (crcOf [0, 0x20, 7]).extractLsb' 0 8 + 1
    let t := (after (.badFrame 0 .B b) crcAwaited).links.b
    t.rx.state = .hunt ∧ t.badFrames = 1 ∧ t.executing = none := by decide +kernel

/-- R145, R149: a byte with a spacing stop bit reaches no rule and stops the gap; the framing error then drops the frame. -/
theorem test_rx_undecided :
    let s := after (.byteReceived 0 .B .spacing) (receiving .payload (some [1, 0x20, 7]))
    s.links.b.rx.undecided = true ∧ s.links.b.rx.partialFrame = some [1, 0x20, 7]
      ∧ (after (.interByteTimeout .B) s).links.b.timeouts = 0
      ∧ (after (.framingError 0 .B) s).links.b.rx = ⟨.hunt, none, s.links.b.rx.crc, 0, false⟩ := by decide +kernel

/-- R151, R172: no command arrives during a break. -/
theorem test_break_hears_no_command : after (.stream 0 .B 3 [1]) (receiving .brk none) = receiving .brk none := by
  decide +kernel

theorem test_rx_timeout :
    let t := (after (.interByteTimeout .B) (receiving .header (some [0]))).links.b
    t.rx.state = .hunt ∧ t.timeouts = 1 := by decide

/-- Table 8-7: READ NOTICE displaces SET OFFSET behind READ STATUS, and the reply carries the count. -/
def queued : State :=
  linked .A (fun k => { k with
    executing := some ⟨⟨0x20, 1, []⟩, some ⟨.ok, [1, 2]⟩, none⟩
    waiting := some ⟨0x40, 2, [2, 1, 2]⟩ })

theorem test_queue_displaces :
    let t := (after (.readNotice 0 .A 3 []) queued).links.a
    t.displaced = 1 ∧ t.displacedTotal = 1 ∧ t.waiting = some ⟨0x21, 3, []⟩ := by decide

theorem test_queue_waits :
    let s := linked .A (fun k => { k with executing := some (command0 0x20) })
    (after (.seek 0 .A 4 [2, 0, 0, 0, 0]) s).links.a.waiting = some ⟨0x12, 4, [2, 0, 0, 0, 0]⟩ := by decide

theorem test_reply_begins :
    let s := queued.onLink .A (fun k => { k with ready := true, displaced := 2 })
    let t := (after (.replyBegin .A) s).links.a
    t.displaced = 0 ∧ t.tx.map (fun x => x.bytes.take 7) = some [0xC3, 0x3C, 2, 0x20, 1, 0, 2] := by decide

/-- Table 8-7: reply 1 ends, and the waiting command is executed at that instant. -/
theorem test_reply_sent :
    let s := queued.onLink .A (fun k => { k with tx := some ⟨.reply true, []⟩, waiting := some ⟨0x12, 4, [2, 0, 0, 0, 0]⟩ })
    let t := (after (.replySent 0 .A) s).links.a
    t.waiting = none ∧ t.executing.map (fun e => (e.command.tag, e.reply.map (·.status))) = some (4, some .ok)
      ∧ t.tx = none := by decide

theorem test_ready : (after (.readyChange 0 .C true) (moved 0)).links.c.ready = true := by decide

/-- Table 8-8: a break during a transfer, and the delivery of its frame after it. -/
def breaking : State :=
  linked .B (fun k => { k with
    executing := some ⟨⟨0x10, 7, [16]⟩, none, some ⟨16, 0, .running⟩⟩
    waiting := some ⟨0x20, 8, []⟩, displaced := 1, stream := true, cursor := 120
    notices := { NoticeSet.empty with gap := some 1 }
    tx := some ⟨.transfer true ⟨120, record0⟩, []⟩ })

theorem test_break :
    let t := (after (.lineBreak 0 .B) breaking).links.b
    t.rx.state = .brk ∧ t.executing = none ∧ t.waiting = none ∧ t.stream = false ∧ t.displaced = 0 ∧ t.cursor = 120
      ∧ t.breaks = 1 ∧ t.notices.gap = some 1 ∧ t.tx = some ⟨.transfer false ⟨120, record0⟩, []⟩ := by decide

theorem test_delivery_after_break :
    let t := (after (.transferFrameDelivered 0 .B) (after (.lineBreak 0 .B) breaking)).links.b
    t.cursor = 121 ∧ t.tx = none ∧ t.executing = none := by decide

theorem test_break_end :
    (after (.breakEnd 0 .B) (receiving .brk none)).links.b.rx.state = .hunt := by decide

/-! ### Transfers, the stream and the ring -/

/-- Table 9-4 in small: READ RECORDS 17 asks for 16. -/
theorem test_read_records :
    let t := (after (.readRecords 0 .B 7 [17]) (ringed .B (fun k => { k with cursor := 4 }))).links.b
    t.executing.bind (·.transfer) = some ⟨16, 0, .running⟩ := by decide

theorem test_read_records_caught_up :
    let t := (after (.readRecords 0 .B 7 [3]) (ringed .B (fun k => { k with cursor := 6 }))).links.b
    t.executing.bind (·.reply) = some ⟨.ok, [0, 0, 0, 0, 6, 0, 0, 0, 6]⟩ := by decide

/-- A transfer of two records with the first delivered. -/
def transferring (delivered : Nat) (cursor : Word) : State :=
  ringed .B (fun k => { k with
    ready := true, cursor := cursor
    executing := some ⟨⟨0x10, 7, [2]⟩, none, some ⟨2, delivered, .running⟩⟩ })

theorem test_transfer_frame :
    let t := (after (.transferFrameBegin .B) (transferring 0 4)).links.b
    t.tx.map (fun x => x.bytes.take 9) = some [0xC3, 0x3C, 26, 0xA0, 7, 0, 0, 0, 4] := by decide

theorem test_transfer_ends :
    let s := (transferring 1 5).onLink .B (fun k => { k with tx := some ⟨.transfer true ⟨5, record0⟩, []⟩ })
    let t := (after (.transferFrameDelivered 0 .B) s).links.b
    t.cursor = 6 ∧ (t.executing.bind (·.reply)) = some ⟨.ok, [2, 0, 0, 0, 6, 0, 0, 0, 6]⟩ := by decide

def streaming : State := ringed .C (fun k => { k with ready := true, stream := true, streamTag := 0x33, cursor := 5 })

theorem test_stream_frame :
    let t := (after (.streamFrameBegin .C) streaming).links.c
    t.tx.map (fun x => x.bytes.take 5) = some [0xC3, 0x3C, 26, 0xA1, 0x33] := by decide

theorem test_stream_delivered :
    let s := streaming.onLink .C (fun k => { k with tx := some ⟨.stream ⟨5, record0⟩, []⟩ })
    (after (.streamFrameDelivered 0 .C) s).links.c.cursor = 6 := by decide

theorem test_stream_on :
    let t := (after (.stream 0 .C 0x33 [1]) (moved 0)).links.c
    t.stream = true ∧ t.streamTag = 0x33 := by decide

theorem test_stream_range :
    ((after (.stream 0 .C 0x33 [2]) (moved 0)).links.c.executing.bind (·.reply)).map (·.status) = some .range := by decide

/-- Table 7-4: the classes of SEEK NUMBER against oldest 4,294,967,294 with 4,096 records. -/
theorem test_seek_classes :
    let r : Ring := ⟨⟨4294967294, record0⟩ :: List.replicate 4095 ⟨0, record0⟩, 4094⟩
    r.distance 5 = 7 ∧ r.distance 4294967290 = 4294967292 ∧ r.distance 4094 = 4096 ∧ r.distance 4095 = 4097
      ∧ r.distance 2147483700 = 2147483702 := by decide

theorem test_seek_older :
    let t := (after (.seek 0 .A 1 [3, 0x80, 0, 0, 4]) (ringed .A id)).links.a
    t.cursor = 4 ∧ (t.executing.bind (·.reply)).map (·.status) = some .adjusted := by decide

theorem test_seek_beyond :
    let t := (after (.seek 0 .A 1 [3, 0, 0, 0, 7]) (ringed .A (fun k => { k with cursor := 5 }))).links.a
    t.cursor = 5 ∧ (t.executing.bind (·.reply)).map (·.status) = some .range := by decide

/-- Table 7-3: the removal of record 4,294,967,295 moves a cursor there to 0 and adds one to its GAP detail. -/
theorem test_removal_wraps :
    let k := (linked .B (fun k => { k with
      cursor := 4294967295, notices := { NoticeSet.empty with gap := some 1 } })).links.b
    (LinkState.passRemoved 4294967295 k).cursor = 0 ∧ (LinkState.passRemoved 4294967295 k).notices.gap = some 2
      ∧ LinkState.passRemoved 4294967294 k = k := by decide

/-- Section 11.2: the Z axis of the worked field case in a record payload. -/
theorem test_record_bytes :
    AxisRecord.bytes ⟨some 58747851, 10, 7, 1, false, true, false, false, false, false⟩ = [0xA7, 1, 2]
      ∧ part32 (some 58747851) = [0x03, 0x80, 0x6B, 0xCB] := by decide

/-! ### Notices, marks, labels and offsets -/

theorem test_read_notice_priority :
    let s := linked .C (fun k => { k with
      notices := { NoticeSet.empty with step := some (.label, 9), gap := some 2, mark := some .line } })
    let t := (after (.readNotice 0 .C 1 []) s).links.c
    (t.executing.bind (·.reply)) = some ⟨.ok, [2, 1, 0, 0, 0, 9, 0, 0x84]⟩ ∧ t.notices.step = none := by decide

theorem test_read_notice_keeps_mark :
    let s := linked .C (fun k => { k with notices := { NoticeSet.empty with mark := some .command } })
    let t := (after (.readNotice 0 .C 1 []) s).links.c
    (t.executing.bind (·.reply)) = some ⟨.ok, [8, 1, 0, 0, 0, 0, 0, 0x80]⟩ ∧ t.notices.mark = some .command := by decide

theorem test_mask : (after (.setNoticeMask 0 .A 1 [0xFF, 0x04]) (moved 0)).links.a.mask = 0x0104 := by decide

theorem test_mask_attn :
    let s := linked .A (fun k => { k with notices := { NoticeSet.empty with gap := some 1 } })
    s.links.a.attn = false ∧ (after (.setNoticeMask 0 .A 1 [0, 0x04]) s).links.a.attn = true := by decide

theorem test_mark_captures :
    let t := (after (.mark 0 .A 1 []) (moved 250000)).links.a
    t.latch.map (fun c => (c.source, c.tick)) = some (.command, 250000) ∧ t.notices.mark = some .command
      ∧ (t.executing.bind (·.reply)).map (fun r => r.payload.take 1) = some [1] := by decide

theorem test_mark_held :
    let t := (after (.mark 0 .A 1 []) (linked .A (fun k => { k with latch := some capture0, ignored := 255 }))).links.a
    t.ignored = 255 ∧ (t.executing.bind (·.reply)) = some ⟨.ok, [2, 0, 0, 0, 9, 0, 0, 0, 5, 255]⟩ := by decide

theorem test_read_mark :
    let s := linked .A (fun k => { k with
      latch := some capture0, ignored := 3, notices := { NoticeSet.empty with mark := some .line } })
    let t := (after (.readMark 0 .A 1 []) s).links.a
    t.latch = none ∧ t.ignored = 0 ∧ t.notices.mark = none
      ∧ (t.executing.bind (·.reply)).map (fun r => (r.payload.take 7, r.payload.length)) = some ([1, 3, 0, 0, 0, 0, 9], 20) := by
  decide

theorem test_mark_line_enable : (after (.setMarkLine 0 .A 1 [1]) (moved 0)).links.a.markLine = true := by decide

theorem test_mark_line_edge :
    let s := linked .A (fun k => { k with markLine := true })
    let t := after (.markLineEdge 0) s
    t.links.a.latch.isSome = true ∧ t.links.b.latch = none ∧ t.samples.mark = 0 := by decide

theorem test_status_length :
    ((after (.readStatus 0 .A 1 []) (moved 0)).links.a.executing.bind (·.reply)).map (fun r => r.payload.length)
      = some 103 := by decide

theorem test_label_armed :
    (after (.labelNextSecond 0 .A 1 [0, 0, 0x1C, 0x20]) (moved 0)).epoch.armed = some 7200 := by decide

theorem test_label_conflict :
    let s := { moved 0 with epoch := { (moved 0).epoch with armed := some 7200 } }
    let t := after (.labelNextSecond 0 .B 1 [0, 0, 0x1C, 0x21]) s
    t.epoch.armed = none ∧ t.epoch.conflict = true ∧ t.links.c.notices.labelConflict = true := by decide

/-- Table 3-5: FIXED −3 restarts the settle one-shot; AUTO keeps index and settle count. -/
theorem test_offset_fixed :
    let s := { moved 0 with axes := { State.reset.axes with y := ⟨-3, .auto, 2, none⟩ } }
    let t := after (.setOffset 0 .C 1 [1, 1, 0xFD]) s
    t.axes.y = ⟨-3, .fixed, 3, none⟩ ∧ (t.links.c.executing.bind (·.reply)) = some ⟨.ok, [1, 0xFD, 3]⟩ := by decide

theorem test_offset_auto :
    let s := { moved 0 with axes := { State.reset.axes with y := ⟨-3, .fixed, 0, none⟩ } }
    let t := after (.setOffset 0 .C 1 [1, 0, 9]) s
    t.axes.y = ⟨-3, .auto, 0, none⟩ ∧ (t.links.c.executing.bind (·.reply)) = some ⟨.ok, [0, 0xFD, 0]⟩ := by decide

/-! ### Calibration and store -/

theorem test_open_edit :
    let t := after (.openEdit 0 .A 1 []) (moved 0)
    t.cal.edit = .editing .A cal0 1200000000
      ∧ (t.links.a.executing.bind (·.reply)) = some ⟨.ok, [0, 0, 0]⟩ := by decide

theorem test_open_edit_busy :
    let t := after (.openEdit 0 .B 1 []) (edited (.editing .A cal0 100))
    (t.links.b.executing.bind (·.reply)) = some ⟨.busy, [0, 0, 0]⟩ ∧ t.cal.edit = .editing .A cal0 100 := by decide

theorem test_write_knot :
    let t := after (.writeKnot 0 .A 1 [2, 16, 0, 0, 0, 5, 0xFF, 0xFF, 0xFF, 0xFE]) (edited (.editing .A cal0 100))
    t.cal.edit.shadow.map (fun c => (c.table.z.knot 16, c.table.z.knot 15)) = some (⟨5, -2⟩, ⟨0, 0⟩) := by decide

theorem test_write_knot_osc :
    let t := after (.writeKnot 0 .A 1 [3, 0, 0, 0, 0, 5, 0, 0, 0, 0]) (edited (.editing .A cal0 100))
    (t.links.a.executing.bind (·.reply)).map (·.status) = some .range := by decide

theorem test_write_band :
    let t := after (.writeBand 0 .A 1 [0, 15, 2]) (edited (.editing .A cal0 100))
    t.cal.edit.shadow.map (fun c => (c.table.x.band 15, c.table.x.band 14)) = some (.void, .interp) := by decide

theorem test_write_bias :
    let t := after (.writeBias 0 .A 1 [1, 0xFB, 0x3B, 0x4C, 0x00]) (edited (.editing .A cal0 100))
    t.cal.edit.shadow.map (fun c => c.bias) = some ⟨0, -80000000, 0⟩ := by decide

theorem test_write_holdover :
    let t := after (.writeHoldoverRate 0 .A 1 [0x03, 0xE8]) (edited (.editing .A cal0 100))
    t.cal.edit.shadow.map (fun c => c.h) = some 1000 := by decide

theorem test_commit :
    let t := after (.commit 0 .A 1 []) (edited (.editing .A cal0 100))
    t.cal.edit = .committing .A cal0 false ∧ t.store.inFlight = some ⟨.commit, ⟨cal0, 1, false, ⟨0, 0, 0⟩⟩, 0⟩
      ∧ (t.links.a.executing.bind (·.reply)) = none := by decide

theorem test_commit_version_wraps : nextVersion 0xFFFF = 1 ∧ nextVersion 7 = 8 := by decide

theorem test_abandon : (after (.abandon 0 .A 1 []) (edited (.editing .A cal0 100))).cal.edit = .none := by decide

theorem test_lock : (after (.lockCalibration 0 .C 1 []) (moved 0)).cal.lock = true := by decide

theorem test_read_table :
    let t := after (.readTable 0 .C 1 [3, 0, 2]) (moved 0)
    (t.links.c.executing.bind (·.reply)).map (fun r => (r.payload.take 5, r.payload.drop 45))
      = some ([3, 0, 2, 0, 0], [0, 0, 0, 0, 0, 0, 0, 0, 0, 0, 0, 5]) := by decide

theorem test_set_baseline :
    let t := after (.setBaseline 0 .B 1 [0, 0, 0, 1, 0xFF, 0xFF, 0xFF, 0xFF, 0, 0, 0, 0]) (moved 0)
    t.cal.baseline = ⟨1, -1, 0⟩ ∧ t.asm.baselineChange = true ∧ t.links.a.notices.baseline = some .B
      ∧ t.links.b.notices.baseline = none ∧ t.store.inFlight.isSome = true := by decide

theorem test_idle_expiry :
    let t := after .idleExpiry (edited (.editing .C cal0 100))
    t.cal.edit = .none ∧ t.links.c.notices.editExpired = true ∧ t.links.a.notices.editExpired = false := by decide

/-- A commit write of link A that started 200,000 ticks ago. -/
def committing (broken : Bool) : State :=
  let s := edited (.committing .A { cal0 with h := 9 } broken)
  { s.onLink .A (fun k => { k with executing := some ⟨⟨0x55, 7, []⟩, none, none⟩ }) with
    store := ⟨s.store.image, some ⟨.commit, ⟨{ cal0 with h := 9 }, 1, false, ⟨0, 0, 0⟩⟩, 200000⟩, false, false⟩ }

theorem test_commit_succeeds :
    let t := after (.storeWriteEnd 0 true) (committing false)
    t.cal.active.h = 9 ∧ t.cal.version = 1 ∧ t.cal.edit = .none ∧ t.links.b.notices.calib = some 1
      ∧ (t.links.a.executing.bind (·.reply)) = some ⟨.ok, [0, 1]⟩ := by decide

theorem test_commit_fails :
    let t := after (.storeWriteEnd 0 false) (committing false)
    t.cal.active.h = 5 ∧ t.cal.edit = .editing .A { cal0 with h := 9 } 1200000000 ∧ t.cal.storeStale = true
      ∧ (t.links.a.executing.bind (·.reply)) = some ⟨.storeFault, [0, 0]⟩ := by decide

/-! ### Resets and power -/

theorem test_power_on_reset : after .powerOnReset (moved 0) = { State.reset with samples := ⟨1, 1, 1⟩ } := by decide

theorem test_warm_reset_keeps :
    let s := ringed .B (fun k => { k with cursor := 5, badFrames := 3 })
    let t := after .warmReset (after (.resetRequest 0) s)
    t.ring = ring2 ∧ t.links.b.cursor = 5 ∧ t.links.b.badFrames = 0 ∧ t.resetWaiting = false
      ∧ after .warmReset s = s ∧ after .warmReset t = t := by decide

theorem test_reset_request : (after (.resetRequest 0) (moved 0)).resetWaiting = true := by decide

theorem test_power_loss :
    let t := after (.powerLoss 0 .written) (committing false)
    t.powered = false ∧ t.store.image.contents.version = 1 ∧ t.store.image.crcGood = true := by decide

theorem test_unknown_kind :
    ((after (.unknownKind 0 .A 0x5A 1 []) (moved 0)).links.a.executing.bind (·.reply)) = some ⟨.unknown, []⟩ := by decide

theorem test_wrong_length :
    ((after (.seek 0 .A 1 [2]) (moved 0)).links.a.executing.bind (·.reply)) = some ⟨.length, []⟩ := by decide

/-- A step runs the command at the front of the queue; an empty queue lets one tick pass. -/
theorem test_step :
    step { moved 0 with pending := [.resetRequest 0] } = exec (.resetRequest 0) (moved 0) := by rfl

theorem test_idle : step (moved 0) = .next ((moved 0).advance 1) := by rfl

/-- No word of the table spells a command. -/
theorem test_decode : decodeTableWord 8 0x20 = none ∧ State.reset.withFetchWord 8 0x20 = State.reset := by decide

/-! ## Witnesses: states and operands that meet the hypotheses of the statements, clause by clause -/

/-- Each thing that can be due: a boundary, a strobe, a midpoint mark, a conversion, an idle time, a store write, a gap, a
reply, a transfer frame, a stream frame and a reset, with the time that may pass and one tick more. -/
theorem witness_TimePassesTickByTick :
    ((moved 0).pending = [] ∧ (moved 0).mayWait 1)
      ∧ (State.reset.pending = [] ∧ (moved 10000000).pending = [] ∧ ¬ (moved 10000000).mayWait 1)
      ∧ ((moved 9900000).mayPass 100000 = true ∧ (moved 9900000).mayPass 100001 = false)
      ∧ ((moved 0).mayPass 500000 = true ∧ (moved 0).mayPass 500001 = false)
      ∧ ((moved 4600000).mayPass 400000 = true ∧ (moved 4600000).mayPass 400001 = false)
      ∧ (State.reset.mayPass 200000 = true ∧ State.reset.mayPass 200001 = false)
      ∧ ((edited (.editing .B cal0 300)).mayPass 300 = true ∧ (edited (.editing .B cal0 300)).mayPass 301 = false)
      ∧ ((committing false).mayPass 400000 = true ∧ (committing false).mayPass 400001 = false)
      ∧ (let s := linked .B (fun k => { k with rx := ⟨.header, some [], 0xFFFF, 1, false⟩ })
         s.mayPass 499999 = true ∧ s.mayPass 500000 = false)
      ∧ (queued.onLink .A (fun k => { k with ready := true })).mayPass 1 = false
      ∧ (transferring 1 5).mayPass 1 = false ∧ streaming.mayPass 1 = false
      ∧ { moved 0 with resetWaiting := true }.mayPass 1 = false :=
  ⟨⟨rfl, waits_ok (by decide)⟩, ⟨rfl, rfl, fun h => absurd h.2 (by decide)⟩, by decide, by decide, by decide, by decide,
    by decide, by decide, by decide, by decide, by decide, by decide, by decide⟩

theorem witness_EveryCommandAnswersANextState :
    { moved 0 with powered := false }.powered = false ∧ Instr.warmReset ≠ .powerOnReset
      ∧ (Instr.resetRequest 500001).wait = some 500001 ∧ (moved 0).mayPass 500001 = false := by decide

theorem witness_WarmResetKeepsRingAndCursors :
    ((moved 0).mayWait 0 ∧ ((moved 0).advance 0).samples.reset = 2)
      ∧ (State.reset.mayWait 1 ∧ (State.reset.advance 0).samples.reset = 1 ∧ (State.reset.advance 1).samples.reset = 2)
      ∧ ({ moved 0 with resetWaiting := true }.powered = true ∧ { moved 0 with resetWaiting := true }.store.inFlight = none
          ∧ (moved 0).powered = true ∧ (moved 0).resetWaiting = false)
      ∧ (committing false).powered = true ∧ (committing false).store.inFlight ≠ none :=
  ⟨⟨waits_ok (by decide), by decide⟩, ⟨waits_ok (by decide), by decide, by decide⟩, ⟨rfl, rfl, rfl, rfl⟩, by decide, by decide⟩

def lastKnot : CalSet := { cal0 with table := { cal0.table with z := zRow } }

/-- The image of a store that holds a calibration: good, and the same with a CRC that fails. -/
def image0 (crc : Bool) : StoreImage := ⟨⟨lastKnot, 9, false, ⟨10000000, -10000000, 0⟩⟩, true, crc⟩

theorem witness_StoreImageSurvivesOrGivesTheDefaults :
    ((moved 0).mayWait 0 ∧ ((moved 0).advance 0).store.inFlight = none)
      ∧ ((committing false).mayWait 400000
          ∧ ((committing false).advance 400000).store.inFlight.map (fun w => w.elapsed) = some 600000)
      ∧ ((image0 true).crcGood = true ∧ (image0 true).modesGood = true ∧ (image0 true).contents.cal.h ≤ 1000
          ∧ (∀ a, -80000000 ≤ (image0 true).contents.cal.bias.get a ∧ (image0 true).contents.cal.bias.get a ≤ 80000000)
          ∧ (∀ a, -10000000 ≤ (image0 true).contents.baseline.get a ∧ (image0 true).contents.baseline.get a ≤ 10000000)
          ∧ (∀ row, ∀ k ∈ ((image0 true).contents.cal.table.row row).knots.toList,
              -1000000 ≤ k.g ∧ k.g ≤ 1000000 ∧ -1000000 ≤ k.o ∧ k.o ≤ 1000000 ∧ (row = .OSC → k.g = 0)))
      ∧ (image0 false).crcGood = false :=
  ⟨⟨waits_ok (by decide), by decide⟩, ⟨waits_ok (by decide), by decide⟩,
    ⟨by decide, by decide, by decide, fun a => by cases a <;> decide, fun a => by cases a <;> decide,
      fun row => by cases row <;> decide⟩, by decide⟩

theorem witness_OrdinaryBoundaryBeginsTheNextSecond :
    table1_3.mayWait (table1_3.epoch.len - table1_3.epoch.tickPos)
      ∧ (moved 9700000).mayWait ((moved 9700000).epoch.len - (moved 9700000).epoch.tickPos) :=
  ⟨waits_ok (by decide), waits_ok (by decide)⟩

theorem sound_epoch (e : EpochTimer) (h1 : 0 ≤ e.acc) (h2 : e.acc ≤ 99999) (h3 : 9999470 ≤ e.len) (h4 : e.len ≤ 10000530)
    (h5 : e.tickPos ≤ e.len) (h6 : ∀ v, e.pendingAdj = some v → -500 ≤ v ∧ v ≤ 500) (h7 : -1000000 ≤ e.yTemp)
    (h8 : e.yTemp ≤ 1000000) (h9 : e.conflict = true → e.armed = none) (h10 : e.epochOutLeft = 100000 - e.tickPos) :
    e.Sound := ⟨h1, h2, h3, h4, h5, h6, h7, h8, h9, h10⟩

theorem witness_LengthFormedFromFrequencyAndAdjustment :
    table1_3.mayWait (table1_3.epoch.len - table1_3.epoch.tickPos) ∧ table1_3.epoch.Sound ∧ table1_3.disc.Sound
      ∧ table1_3.cal.active.inRange = true :=
  ⟨waits_ok (by decide),
    sound_epoch _ (by decide) (by decide) (by decide) (by decide) (by decide)
      (fun v h => by cases h; decide) (by decide) (by decide) (by decide) (by decide),
    ⟨by decide, by decide, by decide, by decide, by decide, by decide, by decide, by decide, by decide, by decide, by decide,
      by decide, by decide, by decide, fun p h => (by cases h), by decide, by decide⟩, by decide⟩

theorem witness_RunningCountsReachTheirEnd :
    ((moved 0).mayWait (moved 0).epoch.epochOutLeft ∧ 0 < (moved 0).epoch.epochOutLeft)
      ∧ (moved 100000).epoch.epochOutLeft = 0
      ∧ ((edited (.editing .B cal0 0)).mayWait 0 ∧ (edited (.editing .B cal0 300)).mayWait 300)
      ∧ (edited .none).cal.edit = .none ∧ (edited (.committing .B cal0 true)).cal.edit = .committing .B cal0 true :=
  ⟨⟨waits_ok (by decide), by decide⟩, by decide, ⟨waits_ok (by decide), waits_ok (by decide)⟩, rfl, rfl⟩

/-- The three cases of a step decision, at their boundaries, and a strobe 4 and the end of the strobes. -/
theorem witness_StrobeTakesOneReadingPerAxis :
    (moved 9600000).epoch.nextStrobe = none
      ∧ ((moved 400000).epoch.nextStrobe = some 0 ∧ (moved 400000).mayWait (500000 + 1000000 * 0 - 400000))
      ∧ ((zStrobe 5 0 .auto 9).epoch.nextStrobe = some 9 ∧ (zStrobe 5 0 .auto 9).mayWait 0
          ∧ (zStrobe 5 0 .auto 9).axes.z.mode = .auto ∧ (zStrobe 5 0 .auto 9).axes.z.settle = 0
          ∧ (6000000 : Int) < 6000001 ∧ (zStrobe 5 0 .auto 9).axes.z.index < 6)
      ∧ ((zStrobe (-5) 0 .auto 9).axes.z.mode = .auto ∧ -6 < (zStrobe (-5) 0 .auto 9).axes.z.index)
      ∧ (zStrobe 6 0 .auto 9).axes.z.index = 6 ∧ (zStrobe 0 3 .auto 9).axes.z.settle = 3
      ∧ ((zStrobe 0 0 .auto 4).epoch.nextStrobe = some 4 ∧ (zStrobe 0 0 .auto 4).mayWait 0
          ∧ ((zStrobe 0 0 .auto 4).advance 0).earlier.get .Z = []) :=
  ⟨by decide, ⟨by decide, waits_ok (by decide)⟩, ⟨by decide, waits_ok (by decide), by decide, by decide, by decide, by decide⟩,
    by decide, by decide, by decide, by decide, waits_ok (by decide), by decide⟩

theorem witness_StrobeFillsTheOpenSlot :
    ((moved 5500000).epoch.nextStrobe = some 5 ∧ (moved 5500000).mayWait (500000 + 1000000 * 5 - 5500000))
      ∧ ((moved 3500000).epoch.nextStrobe = some 3 ∧ (moved 3500000).mayWait 0
          ∧ (moved 3500000).asm.slot.map (fun sl => sl.arrived) = some true)
      ∧ ({ moved 6500000 with asm := ⟨some (Slot.opened 0), 0, false⟩ }.epoch.nextStrobe = some 6
          ∧ { moved 6500000 with asm := ⟨some (Slot.opened 0), 0, false⟩ }.mayWait 0
          ∧ (Slot.opened 0).arrived = false) :=
  ⟨⟨by decide, waits_ok (by decide)⟩, ⟨by decide, waits_ok (by decide), by decide⟩, by decide, waits_ok (by decide), rfl⟩

theorem witness_StrobeFourCompletesTheRecord :
    table5_3.epoch.nextStrobe = some 4 ∧ table5_3.mayWait (4500000 - table5_3.epoch.tickPos)
      ∧ table5_3.asm.slot.map (fun sl => (sl.arrived, sl.label)) = some (true, some .unlabelled)
      ∧ table5_3.thermTS.health ≠ .none ∧ (moved 4500000).thermTS.health = .none
      ∧ ((zStrobe 0 0 .auto 4).epoch.nextStrobe = some 4 ∧ (zStrobe 0 0 .auto 4).mayWait 0
          ∧ (zStrobe 0 0 .auto 4).asm.slot = none)
      ∧ (offsetAtStrobe.epoch.nextStrobe = some 4 ∧ offsetAtStrobe.mayWait 0
          ∧ offsetAtStrobe.earlier.get .Z = [⟨.B, ⟨6, .auto, 0, none⟩, .fixed 2⟩, ⟨.A, ⟨6, .fixed, 0, none⟩, .auto⟩]
          ∧ (offsetAtStrobe.links.get .A).executing = some ⟨⟨0x40, 1, [2, 0, 0]⟩, some ⟨.ok, [0, 6, 0]⟩, none⟩
          ∧ exec (.strobe 1 2 3 false) { offsetAtStrobe with earlier := ⟨[], [], []⟩ }
            = .next (after (.strobe 1 2 3 false) { offsetAtStrobe with earlier := ⟨[], [], []⟩ })) :=
  ⟨by decide, waits_ok (by decide), by decide, by decide, by decide, ⟨by decide, waits_ok (by decide), rfl⟩,
    by decide, waits_ok (by decide), by decide, by decide, rfl⟩

/-- R56, R86: AUTO and then FIXED 2 at strobe 4's instant. "n at completion" is 2; the reading is taken before both (FIXED at
6, no LIMIT), between them (AUTO at 6, LIMIT) or after both (SETTLE), as the free value has it. -/
theorem test_late_set_offset :
    let c := (offsetAtStrobe.strobeWork 4 0 0 7000000 false).axes.get .Z
    c.index = 2 ∧ c.mode = .fixed
      ∧ c.latest.map (fun r => (r.index, r.settle, r.limit)) ∈ [some (6, false, false), some (6, false, true), some (2, true, false)] := by
  have hp := offsetAtStrobe.lateSettings_prefix .Z 4
  simp only [State.strobeWork_axes, State.channelAt]
  generalize offsetAtStrobe.lateSettings .Z 4 = late at hp
  rw [show offsetAtStrobe.earlier.get .Z
    = [⟨.B, ⟨6, .auto, 0, none⟩, .fixed 2⟩, ⟨.A, ⟨6, .fixed, 0, none⟩, .auto⟩] from by decide] at hp
  rcases List.prefix_cons_iff.mp hp with rfl | ⟨l, rfl, h⟩
  · decide
  rcases List.prefix_cons_iff.mp h with rfl | ⟨m, rfl, hm⟩
  · decide
  cases List.prefix_nil.mp hm
  decide

/-- R56: the reply of a late AUTO reports the step that the strobe decided. -/
theorem test_late_auto_reply :
    let s := after (.setOffset 0 .A 1 [2, 0, 0]) (zStrobe 5 0 .auto 4)
    let c := (⟨5, .auto, 0, none⟩ : AxisChannel).strobe .Z 0 4 7000000 false
    ((reviseReplies .Z c (s.earlier.get .Z) s.links).a.executing.bind (·.reply)) = some ⟨.ok, [0, 6, 3]⟩ := by decide

/-- R183: a READ STATUS at the instant shows axis Z FIXED at 2 with 3 to settle, so strobe 4 takes its reading after both. -/
theorem test_status_shows_set_offsets :
    let s := after (.readStatus 0 .C 1 []) offsetAtStrobe
    (s.links.c.executing.bind (·.reply)).map (fun r => (r.payload.drop 61).take 3) = some [1, 2, 3]
      ∧ s.lateSettings .Z 4 = [] ∧ s.channelAt .Z 4 = ⟨2, .fixed, 3, none⟩ :=
  have h : (after (.readStatus 0 .C 1 []) offsetAtStrobe).earlier.get .Z = [] := by decide
  ⟨by decide, State.lateSettings_eq_nil (.inr h), (State.channelAt_eq (.inr h)).trans (by decide)⟩

def fullRing : State := { moved 0 with ring := ⟨List.replicate 4096 ⟨5, record0⟩, 6⟩ }

theorem witness_AppendPlacesTheRecordUnderNextSequence :
    ((moved 0).ring.count < 4096 ∧ (ringed .A id).ring.count < 4096)
      ∧ (4096 ≤ fullRing.ring.count ∧ fullRing.ring.records = ⟨5, record0⟩ :: List.replicate 4095 ⟨5, record0⟩
          ∧ fullRing.links.a.cursor ≠ 5
          ∧ (fullRing.onLink .A (fun k => { k with cursor := 5 })).links.a.cursor = 5) :=
  ⟨⟨by decide, by decide⟩, by unfold fullRing Ring.count; exact Nat.le_of_eq List.length_replicate.symm, rfl, by decide, by decide⟩

theorem witness_RoundingIsToNearestTiesAway : (0 : Int) < 1 ∧ (0 : Int) < 16 := by decide

/-- The table's ends, a knot between two bands, and each band mode. -/
theorem witness_LookupFollowsTheBandMode :
    (channel .none none).health = .none
      ∧ (∀ v, (channel .good (some v)).health ≠ .none ∧ (channel .good (some v)).held = some v)
      ∧ zRow.bands[5] = .interp ∧ zRow.bands[14] = .hold ∧ zRow.bands[15] = .void
      ∧ (∀ k ∈ zRow.knots.toList, -12000 ≤ k.g ∧ k.g ≤ 12000 ∧ -12000 ≤ k.o ∧ k.o ≤ 12000) :=
  ⟨rfl, fun v => ⟨by simp [channel], rfl⟩, by decide, by decide, by decide, by decide⟩

theorem sound_axis0 : AxisChannel.atReset.Sound := ⟨by decide, by decide, by decide, fun r h => (by cases h)⟩

theorem sound_channel0 : Thermometer.Sound ⟨none, none, none, .none, 0⟩ :=
  ⟨fun v h => (by cases h), by decide, by decide, by decide, by decide, by decide, fun n h => (by cases h)⟩

/-- The state after reset with the conversions over, and one axis with a latest reading. -/
def fielded : State :=
  { moved 0 with axes := { State.reset.axes with z := ⟨1, .auto, 0, some (zReading 4 4079640 1 false)⟩ } }

theorem sound_cal (s : State) (h : s.cal = State.reset.cal) (h2 : s.store = State.reset.store) : s.CalSound := by
  constructor
  · rw [h]; decide
  · rw [h]; intro sh hs; cases hs
  · rw [h]; decide
  · rw [h]; intro _; rfl
  · rw [h]; intro a b c hs; cases hs
  · rw [h, h2]; rfl
  · rw [h2]; rfl
  · rw [h2]; intro _ hs; exact absurd hs (by decide)
  · rw [h2]; intro w hs; cases hs

theorem sound_fielded : fielded.FieldSound := by
  refine ⟨fun a => ?_, sound_channel0, sound_channel0, fun a => ?_, fun old h => (by cases h),
    fun a c h => (by cases a <;> cases h), fun sl h => ?_⟩
  · cases a
    · exact sound_axis0
    · exact sound_axis0
    · exact ⟨by decide, by decide, by decide, fun r h => by
        cases h; exact ⟨by decide, by decide, by decide, by decide, by decide⟩⟩
  · cases a <;> exact ⟨by decide, fun r h => (by cases h)⟩
  · cases h; rfl

/-- The state right before strobe 4, with the four readings of strobes 0 to 3 on each axis. -/
def nearDone : State :=
  let r (a : Axis) (k : Nat) : Reading := ⟨a, 0, k, 8388606, -6, false, false, false, false⟩
  let l (a : Axis) : List Reading := [r a 0, r a 1, r a 2, r a 3]
  { moved 4500000 with asm := ⟨some ⟨true, 0, some .unlabelled, false, false, ⟨l .X, l .Y, l .Z⟩, false⟩, 0, false⟩ }

theorem sound_nearDone : nearDone.FieldSound := by
  refine ⟨fun a => ?_, sound_channel0, sound_channel0, fun a => ?_, fun old h => (by cases h),
    fun a c h => (by cases a <;> cases h), fun sl h => (by cases h; rfl)⟩
  · cases a <;> exact sound_axis0
  · cases a <;> refine ⟨by decide, fun r h => ?_⟩ <;>
      (have h := List.mem_cons.mp h
       rcases h with rfl | h
       · exact ⟨by decide, by decide, by decide, by decide, by decide⟩
       · have h := List.mem_cons.mp h
         rcases h with rfl | h
         · exact ⟨by decide, by decide, by decide, by decide, by decide⟩
         · have h := List.mem_cons.mp h
           rcases h with rfl | h
           · exact ⟨by decide, by decide, by decide, by decide, by decide⟩
           · have h := List.mem_singleton.mp h
             subst h
             exact ⟨by decide, by decide, by decide, by decide, by decide⟩)

/-- Strobe 4 appends a record; a capture has a value; and a step goes on from a ring with a record. -/
theorem witness_FieldValuesStayWithinTheBound :
    (nearDone.CalSound ∧ nearDone.FieldSound ∧ nearDone.epoch.nextStrobe = some 4
        ∧ nearDone.mayWait (500000 + 1000000 * 4 - nearDone.epoch.tickPos)
        ∧ (after (.strobe 1 2 3 false) nearDone).ring.count = 1)
      ∧ (fielded.CalSound ∧ fielded.FieldSound ∧ (fielded.captureAxis .Z).value.isSome = true)
      ∧ (let s := { fielded with ring := ring2, pending := [.mark 0 .A 1 []] }
         s.ValuesBounded ∧ s.CalSound ∧ s.FieldSound ∧ ∃ t, step s = .next t) :=
  ⟨⟨sound_cal _ rfl rfl, sound_nearDone, by decide, waits_ok (by decide), by decide⟩,
    ⟨sound_cal _ rfl rfl, sound_fielded, by decide⟩,
    ⟨fun q hq x v h => (by
        rcases List.mem_cons.mp hq with rfl | hq
        · cases x <;> cases h
        · rw [List.mem_singleton.mp hq] at h
          cases x <;> cases h),
      fun l c h => (by cases l <;> cases h)⟩, sound_cal _ rfl rfl,
    ⟨sound_fielded.axes, sound_fielded.thermTS, sound_fielded.thermTO, sound_fielded.lists, sound_fielded.replaced,
      sound_fielded.earlier, sound_fielded.slotLabel⟩, _, rfl⟩

/-- A clock at the midpoint of an interval of 10,000,000 ticks. -/
def midway (c : ClockState) (missing : Nat) (trained measured : Bool) : State :=
  { moved 5000000 with disc := { Discipline.atReset with
      clock := c, missingRun := missing, trained := trained, windowMeasured := measured } }

theorem witness_MidpointMarkClosesTheWindow :
    let n (s : State) := s.epoch.len / 2 - s.epoch.tickPos
    let mark (s : State) := s.mayWait (n s) ∧ (s.advance (n s)).epoch.ahead ((s.advance (n s)).epoch.len / 2) = true
    ((moved 5000000).epoch.len / 2 = (moved 5000000).epoch.tickPos ∧ (moved 5000001).epoch.len / 2 < (moved 5000001).epoch.tickPos
        ∧ (moved 5000000).markIssued.epoch.issued = true)
      ∧ (mark (midway .track 0 true true) ∧ (midway .track 0 true true).disc.windowMeasured = true)
      ∧ (mark (midway .free 0 false false) ∧ (midway .free 0 false false).disc.clock = .free)
      ∧ (mark (midway .track 1 true false) ∧ (midway .track 1 true false).disc.missingRun < 2)
      ∧ (mark (midway .track 2 true false) ∧ 2 ≤ (midway .track 2 true false).disc.missingRun)
      ∧ (mark (midway .acquire 1 false false) ∧ (midway .acquire 1 false false).disc.missingRun < 2)
      ∧ (mark (midway .acquire 2 true false) ∧ (midway .acquire 2 true false).disc.trained = true)
      ∧ (mark (midway .acquire 2 false false) ∧ (midway .acquire 2 false false).disc.trained = false) :=
  ⟨⟨by decide, by decide, rfl⟩, ⟨⟨waits_ok (by decide), by decide⟩, by decide⟩, ⟨⟨waits_ok (by decide), by decide⟩, by decide⟩,
    ⟨⟨waits_ok (by decide), by decide⟩, by decide⟩, ⟨⟨waits_ok (by decide), by decide⟩, by decide⟩,
    ⟨⟨waits_ok (by decide), by decide⟩, by decide⟩, ⟨⟨waits_ok (by decide), by decide⟩, by decide⟩,
    ⟨waits_ok (by decide), by decide⟩, by decide⟩

/-- An edge may be recognised at this tick: position p of a window whose boundary has arrived, in this clock. -/
def edgeAt (c : ClockState) (p good outliers : Nat) : State :=
  { moved p with disc := { Discipline.atReset with clock := c, good := good, outlierRun := outliers } }

theorem edgeAt_meets (c : ClockState) (p good outliers : Nat) (h : waits (edgeAt c p good outliers) 0 = true) :
    (edgeAt c p good outliers).mayWait 0 ∧ ((edgeAt c p good outliers).advance 0).samples.pps = 2
      ∧ ((edgeAt c p good outliers).advance 0).disc.windowMeasured = false
      ∧ (p : Int) = (if ((edgeAt c p good outliers).advance 0).disc.windowArrived
          then (((edgeAt c p good outliers).advance 0).epoch.tickPos : Int)
          else (((edgeAt c p good outliers).advance 0).epoch.tickPos : Int)
            - ((edgeAt c p good outliers).advance 0).epoch.len) :=
  ⟨waits_ok h, rfl, rfl, rfl⟩

theorem witness_SpuriousAndOutlierEdgesAreCounted :
    ((midway .track 0 true true).mayWait 0 ∧ (midway .track 0 true true).samples.pps = 2
        ∧ (midway .track 0 true true).disc.windowMeasured = true)
      ∧ (State.reset.mayWait 0 ∧ (State.reset.advance 0).samples.pps < 2)
      ∧ ((edgeAt .track 1001 0 2).mayWait 0 ∧ (edgeAt .track 1001 0 2).disc.clock = .track
          ∧ 1000 < Int.natAbs 1001 ∧ (edgeAt .track 1001 0 2).disc.outlierRun < 3) :=
  ⟨⟨waits_ok (by decide), by decide, by decide⟩, ⟨waits_ok (by decide), by decide⟩,
    ⟨(edgeAt_meets .track 1001 0 2 (by decide)).1, by decide, by decide, by decide⟩⟩

/-- Each clock state at its limit of |p| and of the good count. -/
theorem witness_AcceptedEdgeSteersTheClock :
    ((edgeAt .acquire 50 14 0).mayWait 0 ∧ Int.natAbs 50 ≤ 50 ∧ (edgeAt .acquire 50 14 0).disc.good < 15)
      ∧ ((edgeAt .acquire 50 15 0).mayWait 0 ∧ 15 ≤ (edgeAt .acquire 50 15 0).disc.good)
      ∧ ((edgeAt .track 1000 0 0).mayWait 0 ∧ Int.natAbs 1000 ≤ 1000)
      ∧ (edgeAt .holdover 1000 0 0).mayWait 0 :=
  ⟨⟨(edgeAt_meets .acquire 50 14 0 (by decide)).1, by decide, by decide⟩,
    ⟨(edgeAt_meets .acquire 50 15 0 (by decide)).1, by decide⟩,
    ⟨(edgeAt_meets .track 1000 0 0 (by decide)).1, by decide⟩, (edgeAt_meets .holdover 1000 0 0 (by decide)).1⟩

theorem witness_LargePhaseStepsTheTimeScale :
    (edgeAt .free 0 0 0).mayWait 0 ∧ ((edgeAt .holdover 1001 0 0).mayWait 0 ∧ 1000 < Int.natAbs 1001)
      ∧ ((edgeAt .track 1001 0 3).mayWait 0 ∧ 3 ≤ (edgeAt .track 1001 0 3).disc.outlierRun)
      ∧ ((edgeAt .acquire 51 0 0).mayWait 0 ∧ 50 < Int.natAbs 51)
      ∧ (beforeBoundary .free).phaseNow = -37
      ∧ (boundaryDue.mayWait 0 ∧ boundaryDue.samples.pps = 2 ∧ boundaryDue.disc.windowMeasured = false
          ∧ boundaryDue.disc.windowArrived = false ∧ boundaryDue.disc.clock = .free ∧ boundaryDue.phaseNow = 0) :=
  ⟨(edgeAt_meets .free 0 0 0 (by decide)).1, ⟨(edgeAt_meets .holdover 1001 0 0 (by decide)).1, by decide⟩,
    ⟨(edgeAt_meets .track 1001 0 3 (by decide)).1, by decide⟩, ⟨(edgeAt_meets .acquire 51 0 0 (by decide)).1, by decide⟩,
    by decide, waits_ok (by decide), by decide⟩

theorem witness_ConversionEndIsJudged :
    (moved 0).thermTS.conversion = none
      ∧ (State.reset.thermTO.conversion = some 200000 ∧ State.reset.mayWait 200000)
      ∧ ((faulted 300).thermTS.conversion = some 0 ∧ (faulted 300).mayWait 0
          ∧ (-6000 : Int) ≤ -6000 ∧ (6000 : Int) ≤ 6000 ∧ ((-6001 : Int) < -6000 ∧ (6000 : Int) < 6001)) :=
  ⟨by decide, ⟨by decide, waits_ok (by decide)⟩, by decide, waits_ok (by decide), by decide, by decide, by decide, by decide⟩

/-- A strobe has come at this very instant; and a SET BASELINE after it. -/
def struck : State := after (.strobe 1 2 3 false) fielded
def rebased : State := after (.setBaseline 0 .B 1 [0, 0, 0, 1, 0, 0, 0, 2, 0, 0, 0, 3]) struck

theorem witness_MarkLineEdgeFillsTheEnabledLatches :
    (State.reset.mayWait 0 ∧ (State.reset.advance 0).samples.mark < 2)
      ∧ ((moved 0).mayWait 0 ∧ ((moved 0).advance 0).samples.mark = 2 ∧ (moved 0).links.a.markLine = false
          ∧ (moved 0).epoch.tickPos < (moved 0).epoch.len ∧ (moved 0).thermTS.health = .none)
      ∧ ((moved 10000000).mayWait 0 ∧ (moved 10000000).samples.mark = 2 ∧ (moved 10000000).epoch.len = (moved 10000000).epoch.tickPos)
      ∧ ((linked .A (fun k => { k with markLine := true })).links.a.latch = none
          ∧ (linked .A (fun k => { k with markLine := true, latch := some capture0 })).links.a.latch = some capture0)
      ∧ (fielded.replaced = none ∧ struck.replaced.isSome = true)
      ∧ (struck.replaced.map (fun old => old.context)
            = some struck.markContext
          ∧ rebased.replaced.map (fun old => old.context) = some struck.markContext
          ∧ rebased.markContext ≠ struck.markContext)
      ∧ (fielded.epoch.nextStrobe = some 0 ∧ fielded.mayWait (500000 - fielded.epoch.tickPos))
      ∧ (fielded.captureReading .X) = none ∧ (fielded.captureReading .Z).isSome = true ∧ table5_3.thermTS.health ≠ .none :=
  ⟨⟨waits_ok (by decide), by decide⟩, ⟨waits_ok (by decide), by decide, by decide, by decide, by decide⟩,
    ⟨waits_ok (by decide), by decide, by decide⟩, by decide, by decide, by decide, ⟨by decide, waits_ok (by decide)⟩, by decide,
    by decide, by decide⟩

/-- R177: a mark after STROBE and SET BASELINE of one tick finds the strobe's readings, as one that a READ STATUS or a READ
NOTICE of the tick has preceded. -/
theorem test_mark_after_set_baseline (a : Axis) :
    rebased.captureReading a = (rebased.axes.get a).latest
      ∧ (after (.readStatus 0 .C 1 []) struck).replaced = none
      ∧ (after (.readNotice 0 .C 1 []) struck).replaced = none := by
  refine ⟨State.captureReading_latest (fun old h => ?_) a, by decide, by decide⟩
  have hc : rebased.replaced.map (fun old => old.context) = some struck.markContext := by decide
  rw [h] at hc
  rw [show old.context = struck.markContext from Option.some.inj hc]
  decide

/-- A baseline write of age n, with what waits behind it. -/
def writing (n : Nat) (commit base reset : Bool) : State :=
  { edited (if commit then .committing .A cal0 false else .none) with
    store := ⟨State.reset.store.image, some ⟨.baseline, StoreContents.default, n⟩, commit, base⟩
    resetWaiting := reset }

theorem witness_BaselineWriteEndStartsTheNextWrite :
    ((moved 0).store.inFlight = none
        ∧ ((writing 0 false false true).advance 199999).store.inFlight = some ⟨.baseline, StoreContents.default, 199999⟩
        ∧ ((writing 200000 false false true).advance 400001).store.inFlight = some ⟨.baseline, StoreContents.default, 600001⟩)
      ∧ ((writing 200000 false false true).mayWait 400000
        ∧ ((writing 200000 false false true).advance 400000).store.inFlight = some ⟨.baseline, StoreContents.default, 600000⟩)
      ∧ ((writing 200000 true true false).mayWait 0 ∧ (writing 200000 true true false).resetWaiting = false
          ∧ (writing 200000 true true false).store.commitWaiting = true
          ∧ (writing 200000 true true false).cal.edit.shadow = some cal0)
      ∧ ((writing 200000 false true false).mayWait 0 ∧ (writing 200000 false true false).store.baselinePending = true)
      ∧ (writing 200000 false false false).mayWait 0 :=
  ⟨⟨rfl, by decide, by decide⟩, ⟨waits_ok (by decide), by decide⟩, ⟨waits_ok (by decide), by decide, by decide, by decide⟩,
    ⟨waits_ok (by decide), by decide⟩, waits_ok (by decide)⟩

/-- With and without a break, with nothing behind, with a baseline write pending, and with a reset waiting. -/
theorem witness_CommitWriteEndDecidesTheEdit (broken : Bool) :
    ((committing broken).advance 400001).store.inFlight
        = some ⟨.commit, ⟨{ cal0 with h := 9 }, 1, false, ⟨0, 0, 0⟩⟩, 600001⟩
      ∧ (committing broken).mayWait 0
      ∧ (let s (reset : Bool) : State := { committing broken with
           store := { (committing broken).store with baselinePending := true }, resetWaiting := reset }
         (s false).mayWait 0 ∧ (s true).mayWait 0)
      ∧ ((committing broken).advance 0).store.inFlight
        = some ⟨.commit, ⟨{ cal0 with h := 9 }, 1, false, ⟨0, 0, 0⟩⟩, 200000⟩
      ∧ ((committing broken).advance 0).cal.edit = .committing .A { cal0 with h := 9 } broken
      ∧ (committing broken).store.commitWaiting = false ∧ (committing broken).store.baselinePending = false := by
  cases broken <;>
    exact ⟨by decide, waits_ok (by decide), ⟨waits_ok (by decide), waits_ok (by decide)⟩, by decide, by decide, by decide,
      by decide⟩

theorem witness_BrokenFramesAreDroppedAndCounted :
    ((receiving .hunt none).mayWait 0 ∧ (receiving .hunt none).links.b.rx.state ≠ .brk)
      ∧ ((receiving .brk none).mayWait 0 ∧ (receiving .brk none).links.b.rx.state = .brk)
      ∧ ((receiving .payload (some [9, 0x20, 7])).mayWait (500000 - (receiving .payload (some [9, 0x20, 7])).links.b.rx.gap)
          ∧ (receiving .payload (some [9, 0x20, 7])).links.b.rx.undecided = false
          ∧ (after (.byteReceived 0 .B .spacing) (receiving .payload (some [9, 0x20, 7]))).links.b.rx.undecided = true)
      ∧ ((receiving .header (some [])).mayWait 0 ∧ (receiving .header (some [])).links.b.rx.partialFrame = some []
          ∧ 64 < (65 : Byte).toNat)
      ∧ (crcAwaited.mayWait 0 ∧ crcAwaited.links.b.rx.state = .check
          ∧ crcAwaited.links.b.rx.partialFrame = some (0 :: 0x20 :: 7 :: ([] ++ [(crcOf [0, 0x20, 7]).extractLsb' 8 8]))
          ∧ ([] : List Byte).length = (0 : Byte).toNat
          ∧ (crcOf [0, 0x20, 7]).extractLsb' 8 8 ++ ((crcOf [0, 0x20, 7]).extractLsb' 0 8 + 1)
            ≠ crcAwaited.links.b.rx.crc) :=
  ⟨⟨waits_ok (by decide), by decide⟩, ⟨waits_ok (by decide), by decide⟩,
    ⟨waits_ok (by decide), by decide, by decide⟩,
    ⟨waits_ok (by decide), by decide, by decide⟩, waits_ok (by decide), rfl, rfl, rfl, by decide +kernel⟩

theorem witness_ByteMovesTheReceiver :
    (64 < (65 : Byte).toNat ∧ (crcAwaited.mayWait 0 ∧ crcAwaited.links.b.rx.undecided = false
        ∧ crcAwaited.links.b.rx.partialFrame = some (0 :: 0x20 :: 7 :: ([] ++ [(crcOf [0, 0x20, 7]).extractLsb' 8 8]))
        ∧ (crcOf [0, 0x20, 7]).extractLsb' 8 8 ++ (crcOf [0, 0x20, 7]).extractLsb' 0 8 = crcAwaited.links.b.rx.crc
        ∧ (crcOf [0, 0x20, 7]).extractLsb' 8 8 ++ ~~~((crcOf [0, 0x20, 7]).extractLsb' 0 8) ≠ crcAwaited.links.b.rx.crc))
      ∧ ∀ x ∈ [receiving .brk none, receiving .hunt none, receiving .sync2 none, receiving .header (some []),
        receiving .header (some [0]), receiving .header (some [0, 0x20]), receiving .payload (some [2, 0x20, 7]),
        receiving .payload (some [2, 0x20, 7, 1]), receiving .check (some [1, 0x20, 7, 5])],
      x.mayWait 0 ∧ x.links.b.rx.undecided = false ∧ (64 : Byte).toNat ≤ 64 ∧ [1].length < (2 : Byte).toNat ∧ [5].length = (1 : Byte).toNat := by
  refine ⟨⟨by decide, waits_ok (by decide), rfl, rfl, by decide +kernel, by decide +kernel⟩, fun x hx => ?_⟩
  have h : (waits x 0 && !x.links.b.rx.undecided) = true := by
    revert x
    decide
  simp only [Bool.and_eq_true, Bool.not_eq_true'] at h
  exact ⟨waits_ok h.1, h.2, by decide, by decide, by decide⟩

theorem witness_GoodFrameHandsItsCommandToTheQueue :
    ((receiving .hunt none).links.b.rx.state ≠ .check
        ∧ (let rx := (receiving .check (some [1, 0x20, 7, 5])).links.b.rx
           rx.state = .check ∧ rx.partialFrame = some (1 :: 0x20 :: 7 :: [5]) ∧ [(5 : Byte)].length = (1 : Byte).toNat)
        ∧ (crcOf [0, 0x20, 7]).extractLsb' 8 8 ++ ~~~((crcOf [0, 0x20, 7]).extractLsb' 0 8) ≠ crcAwaited.links.b.rx.crc)
      ∧ crcAwaited.mayWait 0 ∧ crcAwaited.links.b.rx.undecided = false ∧ crcAwaited.links.b.rx.state = .check
      ∧ crcAwaited.links.b.rx.partialFrame = some (0 :: 0x20 :: 7 :: ([] ++ [(crcOf [0, 0x20, 7]).extractLsb' 8 8]))
      ∧ (crcOf [0, 0x20, 7]).extractLsb' 8 8 ++ (crcOf [0, 0x20, 7]).extractLsb' 0 8 = crcAwaited.links.b.rx.crc
      ∧ (Instr.readStatus 0 .B 7 []).arrival = some (0, .B, ⟨0x20, 7, []⟩) :=
  ⟨⟨by decide, ⟨rfl, rfl, rfl⟩, by decide +kernel⟩, waits_ok (by decide), rfl, rfl, rfl, by decide +kernel, rfl⟩

theorem witness_BreakClearsTheLinksConversation :
    (breaking.mayWait 0 ∧ breaking.links.b.rx.state ≠ .brk)
      ∧ ((edited (.editing .B cal0 9)).mayWait 9 ∧ (edited (.committing .B cal0 false)).mayWait 0
          ∧ (edited .none).mayWait 0)
      ∧ (breaking.links.b.tx = some ⟨.transfer true ⟨120, record0⟩, []⟩ ∧ (moved 0).links.b.tx = none)
      ∧ ((receiving .brk none).mayWait 0 ∧ (receiving .brk none).links.b.rx.state = .brk) :=
  ⟨⟨waits_ok (by decide), by decide⟩, ⟨waits_ok (by decide), waits_ok (by decide), waits_ok (by decide)⟩,
    ⟨rfl, rfl⟩, waits_ok (by decide), by decide⟩

def replying (ready : Bool) (tx : Option Sending) : State := queued.onLink .A (fun k => { k with ready := ready, tx := tx })

theorem witness_ReplyCarriesDisplacedAndFreesItsSlot :
    (moved 0).mayWait 0
      ∧ ((replying true none).powered = true ∧ (replying true none).resetDue = false
          ∧ (replying true none).links.a.executing = some ⟨⟨0x20, 1, []⟩, some ⟨.ok, [1, 2]⟩, none⟩)
      ∧ ((replying false none).links.a.ready = false ∧ (replying false none).resetDue = false)
      ∧ ((replying true (some ⟨.reply false, []⟩)).mayWait 0 ∧ (replying true (some ⟨.reply true, []⟩)).mayWait 0
          ∧ (replying true (some ⟨.reply true, []⟩)).links.a.waiting = some ⟨0x40, 2, [2, 1, 2]⟩
          ∧ (Instr.setOffset 0 .A 2 [2, 1, 2]).arrival = some (0, .A, ⟨0x40, 2, [2, 1, 2]⟩) ∧ (moved 0).takesAt 0 .A)
      ∧ ((replying true (some ⟨.reply true, []⟩)).onLink .A (fun k => { k with waiting := none })).mayWait 0 :=
  ⟨waits_ok (by decide), by decide, by decide, ⟨waits_ok (by decide), waits_ok (by decide), by decide, by decide,
      takes_ok (by decide)⟩, waits_ok (by decide)⟩

theorem witness_RecordFrameCarriesTheRecordAtTheCursor :
    ((transferring 1 5).powered = true ∧ (transferring 1 5).resetDue = false ∧ (transferring 1 5).links.b.ready = true
        ∧ (transferring 1 5).links.b.tx = none ∧ (transferring 1 5).links.b.cursor ≠ (transferring 1 5).ring.next
        ∧ (transferring 1 5).ring.find (transferring 1 5).links.b.cursor = some ⟨5, record0⟩
        ∧ (transferring 1 5).links.b.executing = some ⟨⟨0x10, 7, [2]⟩, none, some ⟨2, 1, .running⟩⟩)
      ∧ (streaming.links.c.ready = true ∧ streaming.links.c.stream = true ∧ streaming.links.c.executing = none
          ∧ streaming.ring.find streaming.links.c.cursor = some ⟨5, record0⟩)
      ∧ (let s := (transferring 1 5).onLink .B (fun k => { k with executing := some ⟨⟨0x20, 1, []⟩, some ⟨.ok, []⟩, none⟩ })
         s.resetDue = false ∧ s.links.b.tx = none ∧ s.ring.find s.links.b.cursor = some ⟨5, record0⟩) := by decide

theorem witness_DeliveryAdvancesTheCursor :
    let sent (s : State) (w : FrameKind) : State := s.onLink .B (fun k => { k with tx := some ⟨w, []⟩ })
    (sent (transferring 0 4) (.stream ⟨4, record0⟩)).mayWait 0
      ∧ (sent (transferring 0 4) (.transfer false ⟨4, record0⟩)).mayWait 0
      ∧ ((sent (transferring 0 4) (.transfer true ⟨4, record0⟩)).mayWait 0 ∧ 0 + 1 < 2
          ∧ (4 : Word) + 1 ≠ (transferring 0 4).ring.next)
      ∧ ((sent (transferring 1 4) (.transfer true ⟨4, record0⟩)).mayWait 0 ∧ 2 ≤ 1 + 1)
      ∧ ((sent (transferring 0 5) (.transfer true ⟨5, record0⟩)).mayWait 0 ∧ (5 : Word) + 1 = (transferring 0 5).ring.next) :=
  ⟨waits_ok (by decide), waits_ok (by decide), ⟨waits_ok (by decide), by decide, by decide⟩,
    ⟨waits_ok (by decide), by decide⟩, waits_ok (by decide), by decide⟩

theorem witness_BusyLinkQueuesOrDisplaces :
    ((Instr.readNotice 0 .A 3 []).arrival = some (0, .A, ⟨0x21, 3, []⟩) ∧ queued.mayWait 0
        ∧ queued.links.a.rx.state ≠ .brk ∧ queued.links.a.rx.undecided = false
        ∧ queued.links.a.executing ≠ none ∧ queued.links.a.waiting ≠ none)
      ∧ ((Instr.stream 0 .B 3 [1]).arrival = some (0, .B, ⟨0x11, 3, [1]⟩) ∧ (receiving .brk none).links.b.rx.state = .brk)
      ∧ (queued.onLink .A (fun k => { k with waiting := none })).links.a.waiting = none :=
  ⟨⟨rfl, waits_ok (by decide), by decide, by decide, by decide, by decide⟩, ⟨rfl, by decide⟩, by decide⟩

theorem witness_UnknownKindsAndLengthsAreAnswered :
    let kinds : List Nat := [0x10, 0x11, 0x12, 0x20, 0x21, 0x22, 0x23, 0x24, 0x25, 0x30, 0x40, 0x50, 0x51, 0x52, 0x53, 0x54,
      0x55, 0x56, 0x57, 0x58, 0x59]
    (moved 0).takesAt 0 .A ∧ (0x5A : Byte).toNat ∉ kinds ∧ (0x59 : Byte).toNat ∈ kinds
      ∧ ((Instr.seek 0 .A 1 [2]).arrival = some (0, .A, ⟨0x12, 1, [2]⟩) ∧ (0x12 : Byte).toNat = 0x12
          ∧ [(2 : Byte)].length ≠ 5) :=
  ⟨takes_ok (by decide), by decide, by decide, rfl, by decide, by decide⟩

/-- The reset state takes a command on every link: what most statements on station commands ask. -/
theorem witness_takesAt (l : Link) : State.reset.takesAt 0 l ∧ (moved 0).takesAt 500000 l := by
  cases l <;> exact ⟨takes_ok (by decide), takes_ok (by decide)⟩

theorem witness_ReadRecordsStartsATransfer :
    (ringed .B id).takesAt 0 .B ∧ (ringed .B id).links.b.cursor ≠ (ringed .B id).ring.next
      ∧ ((moved 0).takesAt 0 .B ∧ (moved 0).links.b.cursor = (moved 0).ring.next)
      ∧ (1 : Byte) ≠ 0 ∧ (17 : Byte) ≠ 0 :=
  ⟨takes_ok (by decide), by decide, ⟨takes_ok (by decide), by decide⟩, by decide, by decide⟩

theorem witness_StreamSetsFlagAndTag : (moved 0).takesAt 0 .C ∧ (2 : Byte) ≠ 0 ∧ (2 : Byte) ≠ 1 :=
  ⟨takes_ok (by decide), by decide, by decide⟩

/-- Each class and each mode, at the numbers where the classes meet. -/
theorem witness_SeekPlacesTheCursor :
    ring2.count ≤ 4096 ∧ (ringed .A id).takesAt 0 .A ∧ (ringed .A id).ring.records = [⟨4, record0⟩] ++ [⟨5, record0⟩]
      ∧ (moved 0).ring.records = [] ∧ ring2.classOf 5 = .inRing ∧ ring2.classOf 6 = .next ∧ ring2.classOf 7 = .beyond
      ∧ ring2.classOf (4 + 2147483647) = .beyond ∧ ring2.classOf (4 + 2147483648) = .older ∧ ring2.classOf 3 = .older
      ∧ 3 < (4 : Byte).toNat :=
  ⟨by decide, takes_ok (by decide), rfl, rfl, by decide, by decide, by decide, by decide, by decide, by decide, by decide⟩

theorem witness_ReadStatusReportsTheState :
    ((moved 10000000).takesAt 0 .A ∧ (moved 10000000).epoch.len = (moved 10000000).epoch.tickPos) ∧ (ringed .A id).takesAt 0 .A ∧ (ringed .A id).epoch.tickPos < (ringed .A id).epoch.len
      ∧ (edited .none).takesAt 0 .A ∧ (edited (.editing .B cal0 5)).takesAt 5 .A
      ∧ (edited (.committing .C cal0 false)).takesAt 0 .A ∧ (ringed .A id).ring.records = [⟨4, record0⟩] ++ [⟨5, record0⟩] :=
  ⟨⟨takes_ok (by decide), by decide⟩, takes_ok (by decide), by decide, takes_ok (by decide), takes_ok (by decide),
    takes_ok (by decide), rfl⟩

/-- A link whose pending notices begin with the one of code i + 1. -/
def noticed (i : Nat) : NoticeSet where
  clock := if i = 0 then some .track else none
  step := if i ≤ 1 then some (.phase, 7) else none
  gap := if i ≤ 2 then some 4294967295 else none
  temp := if i ≤ 3 then some (.TO, .stale) else none
  calib := if i ≤ 4 then some 0xFFFF else none
  baseline := if i ≤ 5 then some .C else none
  editExpired := decide (i ≤ 6)
  mark := if i ≤ 7 then some .line else none
  labelConflict := decide (i ≤ 8)

theorem witness_ReadNoticeReportsTheHighestEntry :
    (∀ i, (linked .A (fun k => { k with notices := noticed i })).takesAt 0 .A)
      ∧ (noticed 0).clock = some .track ∧ ((noticed 1).clock = none ∧ (noticed 1).step = some (.phase, 7))
      ∧ ((noticed 2).step = none ∧ (noticed 2).gap = some 4294967295)
      ∧ ((noticed 3).gap = none ∧ (noticed 3).temp = some (.TO, .stale))
      ∧ ((noticed 4).temp = none ∧ (noticed 4).calib = some 0xFFFF)
      ∧ ((noticed 5).calib = none ∧ (noticed 5).baseline = some .C)
      ∧ ((noticed 6).baseline = none ∧ (noticed 6).editExpired = true)
      ∧ ((noticed 7).editExpired = false ∧ (noticed 7).mark = some .line)
      ∧ ((noticed 8).mark = none ∧ (noticed 8).labelConflict = true) ∧ (noticed 9).labelConflict = false := by
  refine ⟨fun i => ?_, by decide⟩
  have h : (waits (moved 0) 0 && ((moved 0).links.get .A).executing.isNone && (moved 0).hears .A) = true := by decide
  exact takes_ok h

theorem witness_MaskAndMarkLineAreSet : (moved 0).takesAt 0 .B ∧ (255 : Byte) ≠ 0 ∧ (255 : Byte) ≠ 1 :=
  ⟨takes_ok (by decide), by decide, by decide⟩

theorem witness_MarkFillsAndReadMarkEmptiesTheLatch :
    ((moved 0).takesAt 0 .A ∧ ((moved 0).links.get .A).latch = none)
      ∧ ((moved 10000000).takesAt 0 .A ∧ (moved 10000000).epoch.len = (moved 10000000).epoch.tickPos)
      ∧ (let s := linked .A (fun k => { k with latch := some capture0, ignored := 255 })
         s.takesAt 0 .A ∧ (s.links.get .A).latch = some capture0) :=
  ⟨⟨takes_ok (by decide), rfl⟩, ⟨takes_ok (by decide), by decide⟩, takes_ok (by decide), rfl⟩

def labelled (armed : Option Word) (conflict : Bool) : State :=
  { moved 0 with epoch := { (moved 0).epoch with armed := armed, conflict := conflict } }

theorem witness_LabelIsArmedOrMeetsAConflict :
    ((labelled none false).takesAt 0 .A ∧ (labelled none false).epoch.armed = none)
      ∧ ((labelled (some 7) false).takesAt 0 .A ∧ (labelled (some 7) false).epoch.armed = some 7 ∧ (7 : Word) ≠ 8)
      ∧ ((labelled none true).takesAt 0 .A ∧ (labelled none true).epoch.conflict = true) :=
  ⟨⟨takes_ok (by decide), rfl⟩, ⟨takes_ok (by decide), rfl, by decide⟩, takes_ok (by decide), rfl⟩

theorem witness_SetOffsetActsOnItsAxis :
    (moved 0).takesAt 0 .C ∧ ((-6 : Int) ≤ (0xFA : Byte).toInt ∧ (6 : Byte).toInt ≤ 6)
      ∧ (6 < (7 : Byte).toInt ∧ (0xF9 : Byte).toInt < -6) ∧ ((2 : Byte) ≠ 0 ∧ (2 : Byte) ≠ 1) ∧ 2 < (3 : Byte).toNat :=
  ⟨takes_ok (by decide), by decide, by decide, by decide, by decide⟩

/-- The edit states, from the holder and from another link, with the lock clear and set. -/
theorem witness_OpenEditGivesOneHolder :
    ((edited .none).takesAt 0 .A ∧ (edited .none).cal.lock = false)
      ∧ (let s := { edited .none with cal := { State.reset.cal with lock := true } }
         s.takesAt 0 .A ∧ s.cal.edit = .none ∧ s.cal.lock = true)
      ∧ ((edited (.editing .A cal0 9)).takesAt 9 .A ∧ ((edited (.editing .A cal0 9)).advance 9).cal.edit = .editing .A cal0 0)
      ∧ ((edited (.editing .A cal0 9)).takesAt 0 .B ∧ Link.A ≠ .B)
      ∧ (edited (.committing .A cal0 false)).takesAt 0 .A :=
  ⟨⟨takes_ok (by decide), rfl⟩, ⟨takes_ok (by decide), rfl, rfl⟩, ⟨takes_ok (by decide), by decide⟩,
    ⟨takes_ok (by decide), by decide⟩, takes_ok (by decide)⟩

theorem witness_EditWritesNeedTheHolder :
    ((Instr.writeBand 0 .B 1 [9, 9, 9]).arrival = some (0, .B, ⟨0x52, 1, [9, 9, 9]⟩)
        ∧ Kind.ofByte 0x52 = some .writeBand
        ∧ Kind.writeBand ∈ [Kind.writeKnot, .writeBand, .writeBias, .writeHoldoverRate]
        ∧ [(9 : Byte), 9, 9].length = Kind.writeBand.payloadLength)
      ∧ (edited .none).takesAt 0 .B ∧ (edited (.editing .A cal0 9)).takesAt 0 .B
      ∧ (edited (.committing .B cal0 false)).takesAt 0 .B ∧ (edited (.committing .A cal0 false)).takesAt 0 .B :=
  ⟨by decide, takes_ok (by decide), takes_ok (by decide), takes_ok (by decide), takes_ok (by decide)⟩

/-- The holder in EDITING, whose idle timer still runs when the command is taken, with values at their limits. -/
theorem witness_WriteKnotChangesOneKnotOfTheShadow :
    (edited (.editing .A cal0 9)).takesAt 9 .A ∧ (edited (.editing .A cal0 9)).cal.edit = .editing .A cal0 9
      ∧ ((16 : Byte).toNat ≤ 16 ∧ (-1000000 : Int) ≤ (0xFFF0BDC0 : Word).toInt ∧ (0x000F4240 : Word).toInt ≤ 1000000)
      ∧ ¬ ((17 : Byte).toNat ≤ 16) ∧ 3 < (4 : Byte).toNat :=
  ⟨takes_ok (by decide), rfl, by decide, by decide, by decide⟩

theorem witness_WriteBandChangesOneBandOfTheShadow :
    (edited (.editing .A cal0 9)).takesAt 9 .A ∧ ((15 : Byte).toNat ≤ 15 ∧ (2 : Byte).toNat ≤ 2)
      ∧ ¬ ((16 : Byte).toNat ≤ 15) ∧ ¬ ((3 : Byte).toNat ≤ 2) ∧ 3 < (4 : Byte).toNat :=
  ⟨takes_ok (by decide), by decide, by decide, by decide, by decide⟩

theorem witness_WriteBiasAndRateChangeTheShadow :
    (edited (.editing .A cal0 9)).takesAt 9 .A
      ∧ ((-80000000 : Int) ≤ (0xFB3B4C00 : Word).toInt ∧ (0x04C4B400 : Word).toInt ≤ 80000000)
      ∧ ¬ ((0x04C4B401 : Word).toInt ≤ 80000000) ∧ 2 < (3 : Byte).toNat ∧ (1000 : Half).toNat ≤ 1000
      ∧ 1000 < (1001 : Half).toNat :=
  ⟨takes_ok (by decide), by decide, by decide, by decide, by decide, by decide⟩

theorem witness_CommitRequestsTheWrite :
    ((edited (.editing .A cal0 9)).takesAt 9 .A ∧ (edited (.editing .A cal0 9)).store.inFlight = none
        ∧ (edited (.editing .A cal0 9)).resetWaiting = false)
      ∧ (let s := { edited (.editing .A cal0 9) with store := (committing false).store }
         s.takesAt 0 .A ∧ s.store.inFlight ≠ none)
      ∧ (let s := { writing 5 false false true with cal := { State.reset.cal with edit := .editing .A cal0 9 } }
         s.takesAt 0 .A ∧ s.resetWaiting = true)
      ∧ (edited .none).takesAt 0 .A ∧ ((edited (.editing .A cal0 9)).takesAt 0 .B ∧ Link.A ≠ .B)
      ∧ (edited (.committing .A cal0 false)).takesAt 0 .A :=
  ⟨⟨takes_ok (by decide), rfl, rfl⟩, ⟨takes_ok (by decide), by decide⟩, ⟨takes_ok (by decide), rfl⟩, takes_ok (by decide),
    ⟨takes_ok (by decide), by decide⟩, takes_ok (by decide)⟩

theorem witness_AbandonAndLockFollowTheEdit :
    (edited (.editing .A cal0 9)).takesAt 9 .A ∧ (edited .none).takesAt 0 .A
      ∧ ((edited (.editing .A cal0 9)).takesAt 0 .B ∧ Link.A ≠ .B) ∧ (edited (.committing .A cal0 false)).takesAt 0 .A :=
  ⟨takes_ok (by decide), takes_ok (by decide), ⟨takes_ok (by decide), by decide⟩, takes_ok (by decide)⟩

theorem witness_ReadTableAnswersFromACopy :
    (edited (.editing .A cal0 9)).takesAt 9 .A ∧ ((2 : Byte).toNat ≤ 2 ∧ 2 < (3 : Byte).toNat ∧ 3 < (4 : Byte).toNat)
      ∧ ((edited .none).takesAt 0 .A ∧ ∀ sh idle, (edited .none).cal.edit ≠ .editing .A sh idle) ∧ 1 < (2 : Byte).toNat :=
  ⟨takes_ok (by decide), by decide, ⟨takes_ok (by decide), fun sh idle h => (by cases h)⟩, by decide⟩

theorem witness_SetBaselineReplacesAllThree :
    ((moved 0).takesAt 0 .A ∧ (moved 0).store.inFlight = none ∧ (moved 0).resetWaiting = false)
      ∧ ((-10000000 : Int) ≤ (0xFF676980 : Word).toInt ∧ (0x00989680 : Word).toInt ≤ 10000000
          ∧ ¬ (0x00989681 : Word).toInt ≤ 10000000)
      ∧ ((writing 5 false false false).takesAt 0 .A ∧ (writing 5 false false false).store.inFlight ≠ none) :=
  ⟨⟨takes_ok (by decide), rfl, rfl⟩, by decide, takes_ok (by decide), by decide⟩

/-- The invariants hold of a state, near reset, from which a step with a front command goes on. -/
theorem sound_link (ready : Bool) : (LinkState.atReset ready 0).Sound := by
  refine ⟨trivial, fun _ => rfl, fun e h => (by cases h), fun t h => (by cases h), fun _ => rfl, ?_, rfl, fun _ => rfl, fun n h => (by cases h),
    (by show (0 : Half) &&& 0xFE00 = 0; decide)⟩
  cases ready <;> exact ⟨by decide, by decide, by decide, by decide, by decide, by decide, by decide⟩

theorem sound_links : (moved 0).LinksSound := fun l => by cases l <;> exact sound_link false

theorem sound_disc : Discipline.atReset.Sound :=
  ⟨by decide, by decide, by decide, by decide, by decide, by decide, by decide, by decide, by decide, by decide, by decide,
    by decide, by decide, by decide, fun p h => (by cases h), by decide, by decide⟩

theorem sound_clock : fielded.ClockSound :=
  ⟨sound_epoch _ (by decide) (by decide) (by decide) (by decide) (by decide) (fun v h => (by cases h)) (by decide) (by decide)
    (by decide) (by decide), sound_disc, by decide⟩

def front (s : State) (c : Instr) : State := { s with pending := [c] }

theorem witness_EveryStepKeepsTheRingAndItsCursors :
    let s := front (ringed .B (fun k => { k with cursor := 5 })) (.readRecords 0 .B 7 [3])
    s.ring.Sound ∧ step s = .next (after (.readRecords 0 .B 7 [3]) { s with pending := [] })
      ∧ s.ring.distance (s.links.get .B).cursor ≤ s.ring.count ∧ (s.links.get .B).carried = none :=
  ⟨⟨by decide, by decide, by decide⟩, rfl, by decide, by decide⟩

/-- All three links: bounded cursors and lines that carry nothing. -/
theorem witness_CursorsBoundAndFramesFresh : (moved 0).CursorsBound ∧ (moved 0).FramesFresh :=
  ⟨fun l => by cases l <;> decide, fun l q h => by cases l <;> cases h⟩

theorem witness_EveryStepKeepsTheLinksSound :
    (front (moved 0) (.stream 0 .C 3 [1])).LinksSound
      ∧ step (front (moved 0) (.stream 0 .C 3 [1])) = .next (after (.stream 0 .C 3 [1]) (moved 0)) :=
  ⟨sound_links, rfl⟩

theorem witness_EveryStepKeepsTheCalibrationSound :
    (front (moved 0) (.openEdit 0 .A 1 [])).CalSound
      ∧ step (front (moved 0) (.openEdit 0 .A 1 [])) = .next (after (.openEdit 0 .A 1 []) (moved 0))
      ∧ (after (.openEdit 0 .A 1 []) (moved 0)).powered = true :=
  ⟨sound_cal _ rfl rfl, rfl, by decide⟩

theorem witness_EveryStepKeepsTheClockSound :
    (front fielded .epochOutEnd).ClockSound ∧ (front fielded .epochOutEnd).CalSound
      ∧ step (front fielded .epochOutEnd) = .next (after .epochOutEnd fielded) :=
  ⟨⟨sound_clock.epoch, sound_clock.disc, sound_clock.window⟩, sound_cal _ rfl rfl, rfl⟩

theorem witness_EveryStepKeepsTheFieldSound :
    (front fielded (.strobe 1 2 3 false)).FieldSound ∧ (front fielded (.strobe 1 2 3 false)).ClockSound
      ∧ step (front fielded (.strobe 1 2 3 false)) = .next struck :=
  ⟨⟨sound_fielded.axes, sound_fielded.thermTS, sound_fielded.thermTO, sound_fielded.lists, sound_fielded.replaced,
    sound_fielded.earlier, sound_fielded.slotLabel⟩,
    ⟨sound_clock.epoch, sound_clock.disc, sound_clock.window⟩, rfl⟩

end Sys2Proof.Tests
end

section
/-! SUPPORT. The length of an interval (R3): the bounds of the lookup that yields y_temp (R73 to R76), what an ordinary
boundary leads to, and the arithmetic that forms the new length. -/

namespace Sys2Proof.Machine

/-! ## Rounding and interpolation -/

/-- Rounding a quotient between 0 and a whole n stays between 0 and n. -/
theorem roundDiv_between_of_nonneg {a b n : Int} (hb : 0 < b) (ha : 0 ≤ a) (h : a ≤ n * b) :
    0 ≤ roundDiv a b ∧ roundDiv a b ≤ n := by
  have hmul : (n + 1) * (2 * b) = 2 * (n * b) + 2 * b := by
    rw [Int.add_mul, Int.one_mul, Int.mul_left_comm]
  have hlt : (2 * a + b) / (2 * b) < n + 1 := Int.ediv_lt_of_lt_mul (by omega) (by omega)
  rw [roundDiv, if_pos ha]
  exact ⟨Int.ediv_nonneg (by omega) (by omega), by omega⟩

/-- Rounding is symmetric about 0: ties go away from zero on both sides (00_scope.md, Arithmetic). -/
theorem roundDiv_neg {a b : Int} (hb : 0 < b) : roundDiv (-a) b = -roundDiv a b := by
  have hzero : (2 * 0 + b) / (2 * b) = 0 := Int.ediv_eq_zero_of_lt (by omega) (by omega)
  unfold roundDiv
  rcases Int.lt_trichotomy a 0 with h | rfl | h
  · rw [if_pos (by omega), if_neg (by omega), Int.neg_neg]
  · simp only [Int.neg_zero, Int.le_refl, if_true, hzero]
  · rw [if_neg (by omega), if_pos (by omega), Int.neg_neg]

/-- A term between two knots lies between the terms of those knots (R74). -/
theorem interpolate_between {low high f lo hi : Int} (hf0 : 0 ≤ f) (hf : f ≤ 500) (hlow : lo ≤ low ∧ low ≤ hi)
    (hhigh : lo ≤ high ∧ high ≤ hi) : lo ≤ interpolate low high f ∧ interpolate low high f ≤ hi := by
  unfold interpolate knotStep
  rcases Int.le_total low high with h | h
  · obtain ⟨h0, h1⟩ := roundDiv_between_of_nonneg (a := (high - low) * f) (b := 500) (n := high - low) (by decide)
      (Int.mul_nonneg (by omega) hf0) (Int.mul_le_mul_of_nonneg_left hf (by omega))
    omega
  · obtain ⟨h0, h1⟩ := roundDiv_between_of_nonneg (a := (low - high) * f) (b := 500) (n := low - high) (by decide)
      (Int.mul_nonneg (by omega) hf0) (Int.mul_le_mul_of_nonneg_left hf (by omega))
    have hneg : (high - low) * f = -((low - high) * f) := by rw [← Int.neg_mul, Int.neg_sub]
    rw [hneg, roundDiv_neg (by decide)]
    omega

/-! ## The range of a lookup -/

/-- A temperature clamped to the span of the table lies in it (R73). -/
theorem clampTemp_range (t : Int) : -4000 ≤ clampTemp t ∧ clampTemp t ≤ 4000 := by
  unfold clampTemp clampTo tableSpan
  omega

/-- Every term a lookup yields lies within the bound of the terms of its row (R71, R74, R76). -/
theorem Row.lookup_range {r : Row} {bound : Int} (h0 : 0 ≤ bound)
    (h : ∀ k ∈ r.knots.toList, -bound ≤ k.g ∧ k.g ≤ bound ∧ -bound ≤ k.o ∧ k.o ≤ bound) (t : Thermometer) :
    -bound ≤ (r.lookup t).g ∧ (r.lookup t).g ≤ bound ∧ -bound ≤ (r.lookup t).o ∧ (r.lookup t).o ≤ bound := by
  have hneg : -bound ≤ 0 := by omega
  unfold Row.lookup
  cases t.offered with
  | none => exact ⟨hneg, h0, hneg, h0⟩
  | some v =>
    obtain ⟨hlow, hhigh⟩ := clampTemp_range v
    obtain ⟨-, -, -, hpos0, hpos⟩ := bandOf_range hlow hhigh
    obtain ⟨hg0, hg, ho0, ho⟩ := Row.knot_range h0 h (bandOf (clampTemp v))
    unfold Row.lookupAt
    dsimp only
    cases r.band (bandOf (clampTemp v)) with
    | interp =>
      obtain ⟨hg0', hg', ho0', ho'⟩ := Row.knot_range h0 h (bandOf (clampTemp v) + 1)
      obtain ⟨hgi0, hgi⟩ := interpolate_between hpos0 hpos ⟨hg0, hg⟩ ⟨hg0', hg'⟩
      exact ⟨hgi0, hgi, interpolate_between hpos0 hpos ⟨ho0, ho⟩ ⟨ho0', ho'⟩⟩
    | hold => exact ⟨hg0, hg, ho0, ho⟩
    | void => exact ⟨hneg, h0, hneg, h0⟩

/-- The terms of an OSC row within its ranges (Table 4-5, R71). -/
theorem Row.knots_of_oscInRange {r : Row} (h : r.oscInRange = true) :
    ∀ k ∈ r.knots.toList, -1000000 ≤ k.g ∧ k.g ≤ 1000000 ∧ -1000000 ≤ k.o ∧ k.o ≤ 1000000 := by
  intro k hk
  have hall := List.all_eq_true.mp h k hk
  simp only [within, termLimit, Bool.and_eq_true, decide_eq_true_eq] at hall
  omega

theorem CalSet.oscInRange_of_inRange {c : CalSet} (h : c.inRange = true) : c.table.osc.oscInRange = true := by
  simp only [CalSet.inRange, Bool.and_eq_true] at h
  obtain ⟨⟨⟨-, hosc⟩, -⟩, -⟩ := h
  exact hosc

/-- y_temp lies within ±1,000,000 under a calibration that lies within its ranges (R71, R78). -/
theorem CalSet.yTemp_range {c : CalSet} (h : c.inRange = true) (t : Thermometer) :
    -1000000 ≤ (c.table.osc.lookup t).o ∧ (c.table.osc.lookup t).o ≤ 1000000 :=
  (Row.lookup_range (by decide) (Row.knots_of_oscInRange (CalSet.oscInRange_of_inRange h)) t).2.2

/-! ## Up to the boundary -/

@[simp] theorem State.advance_cal_active (n : Nat) (s : State) : (s.advance n).cal.active = s.cal.active := by
  unfold State.advance
  split <;> rfl

@[simp] theorem State.advance_epoch_acc (n : Nat) (s : State) : (s.advance n).epoch.acc = s.epoch.acc := by
  rw [State.advance_epoch]
  split <;> rfl

@[simp] theorem State.advance_epoch_pendingAdj (n : Nat) (s : State) :
    (s.advance n).epoch.pendingAdj = s.epoch.pendingAdj := by
  rw [State.advance_epoch]
  split <;> rfl

@[simp] theorem State.advance_epoch_sn (n : Nat) (s : State) : (s.advance n).epoch.sn = s.epoch.sn := by
  rw [State.advance_epoch]
  split <;> rfl

/-- The ordinary boundary takes place when the tick position reaches L (R1, R8). -/
theorem exec_ordinaryBoundary {s : State} (hw : s.mayWait (s.epoch.len - s.epoch.tickPos)) :
    exec .ordinaryBoundary s
      = .next ((s.advance (s.epoch.len - s.epoch.tickPos)).boundary false (s.epoch.sn + 1)) := by
  simp only [exec, execOrdinaryBoundary]
  rw [State.atInstant_of_occurs _ hw rfl, State.advance_epoch_sn]

/-! ## The arithmetic of R3 -/

/-- An adjustment that is present or absent lies within ±500. -/
theorem EpochTimer.Sound.adjustment_range {e : EpochTimer} (h : e.Sound) :
    -500 ≤ e.pendingAdj.getD 0 ∧ e.pendingAdj.getD 0 ≤ 500 := by
  cases hv : e.pendingAdj with
  | none => decide
  | some v => exact h.adjustment v hv

/-- The whole ticks q in A + y: few enough that L stays near nominal. -/
theorem EpochTimer.Sound.quotient_range {e : EpochTimer} (h : e.Sound) {y : Int} (hlow : -3000000 ≤ y)
    (hhigh : y ≤ 3000000) :
    -30 ≤ (e.acc + y) / 100000 ∧ (e.acc + y) / 100000 ≤ 30 := by
  have hacc0 := h.accLow
  have hacc := h.accHigh
  omega

end Sys2Proof.Machine

namespace Sys2Proof.Proofs

open Sys2Proof.Machine

/-- Settles O8: the new timer is the one of `State.boundary_outcome`, with q = (A + y) / 100,000 floored; y is bounded by R34
and by the range of the OSC row. -/
theorem lengthFormedFromFrequencyAndAdjustment : Obligations.LengthFormedFromFrequencyAndAdjustment := by
  intro s hwait hepoch hdisc hcal
  have hnew := ((s.advance (s.epoch.len - s.epoch.tickPos)).boundary_outcome false (s.epoch.sn + 1)).epoch
  obtain ⟨htemp0, htemp⟩ := CalSet.yTemp_range hcal (s.advance (s.epoch.len - s.epoch.tickPos)).thermTO
  simp only [State.advance_epoch_acc, State.advance_epoch_pendingAdj, State.advance_disc, State.advance_cal_active,
    Bool.false_eq_true, if_false] at hnew
  generalize (s.cal.active.table.osc.lookup (s.advance (s.epoch.len - s.epoch.tickPos)).thermTO).o = yTemp at *
  have hy0 : -3000000 ≤ s.disc.yDisc + yTemp := Int.add_le_add hdisc.yDiscLow htemp0
  have hy : s.disc.yDisc + yTemp ≤ 3000000 := Int.add_le_add hdisc.yDiscHigh htemp
  obtain ⟨hq0, hq⟩ := hepoch.quotient_range hy0 hy
  obtain ⟨hadj0, hadj⟩ := hepoch.adjustment_range
  refine ⟨_, (s.epoch.acc + (s.disc.yDisc + yTemp)) / 100000, exec_ordinaryBoundary hwait, ?_⟩
  rw [hnew]
  dsimp only
  refine ⟨hy0, hy, Int.emod_def _ _, Int.emod_nonneg _ (by decide), ?_, hq0, hq, Int.toNat_of_nonneg ?_, rfl, ?_, ?_⟩ <;>
    omega

end Sys2Proof.Proofs
end

section
/-! SUPPORT. An accepted edge (R26, R28, R32): which update the clock state selects, and what each update changes. -/

namespace Sys2Proof.Machine

/-! ## The update that an accepted edge selects -/

/-- The state in which an edge of phase p is judged: the input is noted high, the window holds its measured edge (R19, R21). -/
def State.edgeMeasured (a : State) (p : Int) : State :=
  { a with
    samples := { a.samples with pps := 0 }
    disc := { a.disc with windowMeasured := true, lastPhase := some p } }

/-- `edgeMeasured` is the state that PPS_EDGE hands to the rule of the clock state (R19, R21, R22). -/
theorem exec_ppsEdge_eq_evaluateEdge {s : State} {w : Nat} {p : Int} (hwait : s.mayWait w)
    (hpps : (s.advance w).samples.pps = 2) (hmeasured : (s.advance w).disc.windowMeasured = false)
    (hphase : p = (s.advance w).phaseNow) :
    exec (.ppsEdge w) s = .next (((s.advance w).edgeMeasured p).evaluateEdge p) :=
  exec_ppsEdge_measured hwait hpps hmeasured hphase

theorem State.evaluateEdge_acquire_accepted {s : State} {p : Int} (hclock : s.disc.clock = .acquire)
    (hp : p.natAbs ≤ 50) : s.evaluateEdge p = s.acquireUpdate p := by
  unfold State.evaluateEdge
  rw [hclock]
  exact if_pos hp

theorem State.evaluateEdge_track_accepted {s : State} {p : Int} (hclock : s.disc.clock = .track)
    (hp : p.natAbs ≤ 1000) : s.evaluateEdge p = s.trackUpdate p := by
  unfold State.evaluateEdge
  rw [hclock]
  exact if_pos hp

theorem State.evaluateEdge_holdover_accepted {s : State} {p : Int} (hclock : s.disc.clock = .holdover)
    (hp : p.natAbs ≤ 1000) : s.evaluateEdge p = (s.enterClock .track).trackUpdate p := by
  unfold State.evaluateEdge
  rw [hclock]
  exact if_pos hp

/-! ## What an update changes -/

/-- The frequency update clamps y_disc, and its flag says whether it had to (R34). -/
theorem Discipline.addFrequency_eq (d : Discipline) (inc : Int) :
    d.addFrequency inc =
      { d with
        yDisc := max (-2000000) (min 2000000 (d.yDisc + inc))
        freqLimit := decide (d.yDisc + inc < -2000000 ∨ 2000000 < d.yDisc + inc) } := by
  rw [Bool.decide_or]
  rfl

/-- Before the sixteenth accepted edge ACQUIRE stays: full gain, one good edge more (R26, R35). -/
theorem State.acquireUpdate_of_good_lt {s : State} (p : Int) (hgood : s.disc.good < 15) :
    s.acquireUpdate p =
      State.setAdjustment
        { s with disc := { s.disc.addFrequency (p * 100000) with good := s.disc.good + 1, missingRun := 0 } } p := by
  have hstay : ¬ 16 ≤ s.disc.good + 1 := by omega
  exact if_neg hstay

/-- The sixteenth accepted edge leads to TRACK with the U of its phase and a CLOCK notice on all links (R24, R26, R28). -/
theorem State.acquireUpdate_of_le_good {s : State} (p : Int) (hgood : 15 ≤ s.disc.good) :
    s.acquireUpdate p =
      State.setAdjustment
        { s with
          disc := { s.disc.addFrequency (p * 100000) with
            clock := .track, good := s.disc.good + 1, missingRun := 0, outlierRun := 0, trained := true
            u := max 100 (100 * p.natAbs) }
          links := s.links.map (LinkState.raise (.clock .track)) } p := by
  have hleave : 16 ≤ s.disc.good + 1 := by omega
  exact if_pos hleave

/-- The TRACK update: a sixteenth of the frequency, half of the phase, and the U of the phase (R28, R35). -/
theorem State.trackUpdate_eq (s : State) (p : Int) :
    s.trackUpdate p =
      State.setAdjustment
        { s with disc := { s.disc.addFrequency (roundDiv (p * 100000) 16) with
            u := max 100 (100 * p.natAbs), outlierRun := 0, missingRun := 0 } }
        (roundDiv p 2) := rfl

end Sys2Proof.Machine

namespace Sys2Proof.Proofs

open Sys2Proof.Machine

/-- Settles O19, by the clock state that judges the edge; ACQUIRE splits at its sixteenth accepted edge. -/
theorem acceptedEdgeSteersTheClock : Obligations.AcceptedEdgeSteersTheClock := by
  intro s w p a hwait hpps hmeasured hphase
  have hexec := exec_ppsEdge_eq_evaluateEdge hwait hpps hmeasured hphase
  refine ⟨?acquireStays, ?acquireEnds, ?track, ?holdover⟩
  case acquireStays =>
    intro hclock hp hgood
    rw [hexec, State.evaluateEdge_acquire_accepted (s := a.edgeMeasured p) hclock hp,
      State.acquireUpdate_of_good_lt (s := a.edgeMeasured p) p hgood, Discipline.addFrequency_eq]
    rfl
  case acquireEnds =>
    intro hclock hp hgood
    rw [hexec, State.evaluateEdge_acquire_accepted (s := a.edgeMeasured p) hclock hp,
      State.acquireUpdate_of_le_good (s := a.edgeMeasured p) p hgood, Discipline.addFrequency_eq]
    rfl
  case track =>
    intro hclock hp
    rw [hexec, State.evaluateEdge_track_accepted (s := a.edgeMeasured p) hclock hp, State.trackUpdate_eq,
      Discipline.addFrequency_eq]
    rfl
  case holdover =>
    intro hclock hp
    rw [hexec, State.evaluateEdge_holdover_accepted (s := a.edgeMeasured p) hclock hp, State.trackUpdate_eq,
      Discipline.addFrequency_eq]
    rfl

end Sys2Proof.Proofs
end

section
/-! SUPPORT. A lookup at what a channel offers (R73 to R76): the temperature it is made at, the knots and the band mode it
reads, and what each band mode yields. -/

namespace Sys2Proof.Machine

/-! ## What a channel offers -/

theorem Thermometer.offered_of_health_none {t : Thermometer} (h : t.health = .none) : t.offered = none := by
  unfold Thermometer.offered
  rw [h]

/-- A channel that is not NONE offers its held value (Table 4-2). -/
theorem Thermometer.offered_of_health_ne_none {t : Thermometer} (h : t.health ≠ .none) : t.offered = t.held := by
  unfold Thermometer.offered
  cases hh : t.health with
  | none => exact absurd hh h
  | good => rfl
  | held => rfl
  | stale => rfl

/-- With health NONE the lookup is treated as VOID, and nothing is clamped (R73, R76). -/
theorem Row.lookup_of_health_none (r : Row) {t : Thermometer} (h : t.health = .none) :
    r.lookup t = LookupResult.voided false := by
  rw [Row.lookup, Thermometer.offered_of_health_none h]

theorem Row.lookup_of_held (r : Row) {t : Thermometer} {v : Int} (h : t.health ≠ .none) (hv : t.held = some v) :
    r.lookup t = r.lookupAt v := by
  rw [Row.lookup, Thermometer.offered_of_health_ne_none h, hv]

/-! ## The knots and bands of a row -/

theorem Row.knot_of_lt (r : Row) {k : Nat} (h : k < 17) : r.knot k = r.knots[k] := by
  simp [Row.knot, Vector.getD, Array.getD, h]

theorem Row.band_of_lt (r : Row) {b : Nat} (h : b < 16) : r.band b = r.bands[b] := by
  simp [Row.band, Vector.getD, Array.getD, h]

/-! ## What each band mode yields -/

/-- TEMP-CLAMP: clamping changes exactly the temperatures outside the span (R73). -/
theorem clampTemp_changes (v : Int) : (!decide (clampTemp v = v)) = decide (v < -4000 ∨ 4000 < v) := by
  rw [← decide_not, decide_eq_decide]
  unfold clampTemp clampTo tableSpan
  omega

section

variable {r : Row} {v : Int}

theorem Row.lookupAt_of_void (h : r.band (bandOf (clampTemp v)) = .void) :
    r.lookupAt v = ⟨0, 0, decide (v < -4000 ∨ 4000 < v), true⟩ := by
  rw [Row.lookupAt, h, clampTemp_changes]
  rfl

/-- HOLD yields the terms of the knot below (R75). -/
theorem Row.lookupAt_of_hold (h : r.band (bandOf (clampTemp v)) = .hold) :
    r.lookupAt v =
      ⟨(r.knot (bandOf (clampTemp v))).g, (r.knot (bandOf (clampTemp v))).o, decide (v < -4000 ∨ 4000 < v), false⟩ := by
  rw [Row.lookupAt, h, clampTemp_changes]

/-- INTERP yields the terms between the knots below and above (R74). -/
theorem Row.lookupAt_of_interp (h : r.band (bandOf (clampTemp v)) = .interp) :
    let low := r.knot (bandOf (clampTemp v))
    let high := r.knot (bandOf (clampTemp v) + 1)
    let f := positionIn (clampTemp v) (bandOf (clampTemp v))
    r.lookupAt v =
      ⟨interpolate low.g high.g f, interpolate low.o high.o f, decide (v < -4000 ∨ 4000 < v), false⟩ := by
  rw [Row.lookupAt, h, clampTemp_changes]

end

end Sys2Proof.Machine

namespace Sys2Proof.Proofs

open Sys2Proof.Machine

/-- Settles O15: the band is `bandOf` of the clamped value, the mode of that band decides, and the range is that of
`Row.lookup_range`. -/
theorem lookupFollowsTheBandMode : Obligations.LookupFollowsTheBandMode := by
  refine ⟨fun r t => ⟨r.lookup_of_health_none, ?held⟩, fun r t bound h0 hknots => Row.lookup_range h0 hknots t⟩
  case held =>
    intro v hhealth hv
    obtain ⟨hlow, hhigh⟩ := clampTemp_range v
    obtain ⟨hb, hinside, hend, -, -⟩ := bandOf_range hlow hhigh
    have hband := r.band_of_lt hb
    have hknot := r.knot_of_lt (Nat.lt_succ_of_lt hb)
    have hnext := r.knot_of_lt (Nat.succ_lt_succ hb)
    rw [r.lookup_of_held hhealth hv]
    refine ⟨bandOf (clampTemp v), hb, hinside, hend, ?void, ?hold, ?interp⟩
    case void => exact fun hmode => Row.lookupAt_of_void (hband.trans hmode)
    case hold =>
      intro hmode
      rw [Row.lookupAt_of_hold (hband.trans hmode), hknot]
    case interp =>
      intro hmode
      rw [Row.lookupAt_of_interp (hband.trans hmode), hknot, hnext]
      rfl

end Sys2Proof.Proofs
end

section
/-! SUPPORT. The end of a conversion (R62 to R64, R66): what the channel takes from the result, and the state that
CONVERSION_END leads to. -/

namespace Sys2Proof.Machine

/-! ## What the channel takes -/

theorem validReading_of_range {v : Int} (hlow : -6000 ≤ v) (hhigh : v ≤ 6000) : validReading (.value v) = some v :=
  if_pos ⟨hlow, hhigh⟩

/-- NO-CONVERSION and every value beyond ±6000 are a fault (R62, R63). -/
theorem validReading_of_fault {r : ConvResult} (h : r = .noConversion ∨ ∃ v, r = .value v ∧ (v < -6000 ∨ 6000 < v)) :
    validReading r = none := by
  rcases h with rfl | ⟨v, rfl, hv⟩
  · rfl
  · have hbeyond : ¬ (-readingLimit ≤ v ∧ v ≤ readingLimit) := by
      unfold readingLimit
      omega
    exact if_neg hbeyond

theorem Thermometer.take_of_valid (t : Thermometer) {r : ConvResult} {v : Int} (h : validReading r = some v) :
    t.take r = { conversion := none, raw := some r, held := some v, health := .good, faults := 0 } := by
  rw [Thermometer.take, h]

/-- A fault leaves the held value and is counted up to 65,535; the count then gives the health (R63, R64). -/
theorem Thermometer.take_of_fault (t : Thermometer) {r : ConvResult} (h : validReading r = none) :
    t.take r =
      { conversion := none, raw := some r, held := t.held, faults := min 65535 (t.faults + 1)
        health := healthAfterFault t.held (min 65535 (t.faults + 1)) } := by
  rw [Thermometer.take, h]
  rfl

/-- Whatever the result, it becomes the last raw sample and the conversion is over (R61, R62). -/
theorem Thermometer.take_ends (t : Thermometer) (r : ConvResult) :
    (t.take r).conversion = none ∧ (t.take r).raw = some r := by
  cases h : validReading r with
  | none => rw [t.take_of_fault h]; exact ⟨rfl, rfl⟩
  | some v => rw [t.take_of_valid h]; exact ⟨rfl, rfl⟩

theorem healthAfterFault_of_few {held : Option Int} {faults : Nat} (hheld : held ≠ none) (h : faults ≤ 300) :
    healthAfterFault held faults = .held := by
  obtain ⟨v, rfl⟩ := Option.ne_none_iff_exists'.mp hheld
  exact if_pos h

theorem healthAfterFault_of_many {held : Option Int} {faults : Nat} (hheld : held ≠ none) (h : 300 < faults) :
    healthAfterFault held faults = .stale := by
  obtain ⟨v, rfl⟩ := Option.ne_none_iff_exists'.mp hheld
  exact if_neg (Nat.not_le.mpr h)

/-! ## What time leaves of a channel -/

theorem State.advance_thermometer (n : Nat) (s : State) (ch : Channel) :
    (s.advance n).thermometer ch = if n = 0 then s.thermometer ch else (s.thermometer ch).elapse n := by
  unfold State.advance
  cases ch <;> split <;> rfl

@[simp] theorem State.advance_thermometer_held (n : Nat) (s : State) (ch : Channel) :
    ((s.advance n).thermometer ch).held = (s.thermometer ch).held := by
  rw [State.advance_thermometer]
  split <;> rfl

@[simp] theorem State.advance_thermometer_health (n : Nat) (s : State) (ch : Channel) :
    ((s.advance n).thermometer ch).health = (s.thermometer ch).health := by
  rw [State.advance_thermometer]
  split <;> rfl

@[simp] theorem State.advance_thermometer_faults (n : Nat) (s : State) (ch : Channel) :
    ((s.advance n).thermometer ch).faults = (s.thermometer ch).faults := by
  rw [State.advance_thermometer]
  split <;> rfl

/-! ## The command -/

theorem exec_conversionEnd_of_none {s : State} {ch : Channel} (r : ConvResult)
    (h : (s.thermometer ch).conversion = none) : exec (.conversionEnd ch r) s = .next s := by
  simp only [exec, execConversionEnd, h]

/-- The conversion's end takes place when the ticks left of it have passed (R61, R62). -/
theorem exec_conversionEnd_of_some {s : State} {ch : Channel} {n : Nat} (r : ConvResult)
    (h : (s.thermometer ch).conversion = some n) (hwait : s.mayWait n) :
    exec (.conversionEnd ch r) s = .next ((s.advance n).takeConversion ch r) := by
  simp only [exec, execConversionEnd, h]
  exact State.atInstant_of_occurs _ hwait rfl

/-- The channel's health stays: its block alone changes. -/
theorem State.takeConversion_of_health_eq {s : State} {ch : Channel} {r : ConvResult}
    (h : ((s.thermometer ch).take r).health = (s.thermometer ch).health) :
    s.takeConversion ch r = s.setThermometer ((s.thermometer ch).take r) ch :=
  if_pos h

/-- The channel's health changes: TEMP is raised on all links (R66). -/
theorem State.takeConversion_of_health_ne {s : State} {ch : Channel} {r : ConvResult}
    (h : ((s.thermometer ch).take r).health ≠ (s.thermometer ch).health) :
    s.takeConversion ch r =
      (s.setThermometer ((s.thermometer ch).take r) ch).raiseAll (.temp ch ((s.thermometer ch).take r).health) :=
  if_neg h

end Sys2Proof.Machine

namespace Sys2Proof.Proofs

open Sys2Proof.Machine

/-- Settles O21: the channel after the conversion is `Thermometer.take` of the channel at its end, and the cases of the
result are those of `validReading`. -/
theorem conversionEndIsJudged : Obligations.ConversionEndIsJudged := by
  intro s ch r chan set
  have hchan (u : State) : chan u = u.thermometer ch := by cases ch <;> rfl
  have hset (u : State) (t : Thermometer) : set u t = u.setThermometer t ch := by cases ch <;> rfl
  simp only [hchan, hset]
  refine ⟨exec_conversionEnd_of_none r, fun n hconv hwait => ?_⟩
  have hexec := exec_conversionEnd_of_some r hconv hwait
  have hhealth := s.advance_thermometer_health n ch
  obtain ⟨hover, hraw⟩ := ((s.advance n).thermometer ch).take_ends r
  refine ⟨((s.advance n).thermometer ch).take r, ?same, ?changed, hover, hraw, ?valid, ?fault⟩
  case same =>
    intro hsame
    rw [hexec, State.takeConversion_of_health_eq (hsame.trans hhealth.symm)]
  case changed =>
    intro hchanged
    rw [hexec, State.takeConversion_of_health_ne (hhealth.symm ▸ hchanged)]
    cases ch <;> rfl
  case valid =>
    rintro v rfl hlow hhigh
    rw [Thermometer.take_of_valid _ (validReading_of_range hlow hhigh)]
    exact ⟨rfl, rfl, rfl⟩
  case fault =>
    intro hfault
    rw [Thermometer.take_of_fault _ (validReading_of_fault hfault), State.advance_thermometer_held,
      State.advance_thermometer_faults]
    refine ⟨rfl, rfl, ?none, healthAfterFault_of_few, healthAfterFault_of_many⟩
    case none =>
      intro hnone
      rw [hnone]
      rfl

end Sys2Proof.Proofs
end

section
/-! SUPPORT. OPEN EDIT (R107): what the command does in each edit state, and the state in which it stands answered. -/

namespace Sys2Proof.Machine

/-! ## What OPEN EDIT does, by the edit state -/

section

variable {u : State} {l h : Link} {sh : CalSet} {idle : Nat} {broken : Bool}

theorem State.takeOpenEdit_of_unlocked (hedit : u.cal.edit = .none) (hlock : u.cal.lock = false) :
    u.takeOpenEdit l =
      (u.setEdit (.editing l u.cal.active idleTicks)).answer l .ok (be16 u.cal.version ++ [linkCode l]) := by
  simp only [State.takeOpenEdit, hedit, hlock]
  rfl

theorem State.takeOpenEdit_of_locked (hedit : u.cal.edit = .none) (hlock : u.cal.lock = true) :
    u.takeOpenEdit l = u.answer l .locked [] := by
  simp only [State.takeOpenEdit, hedit, hlock, if_true]

theorem State.takeOpenEdit_of_holder (hedit : u.cal.edit = .editing l sh idle) :
    u.takeOpenEdit l =
      (u.setEdit (.editing l sh idleTicks)).answer l .ok (be16 u.cal.version ++ [linkCode l]) := by
  simp only [State.takeOpenEdit, hedit, if_true]
  rfl

/-- BUSY reports the version and the holder of the edit that stands (Table 11-3). -/
theorem State.answerOpen_of_holder {st : Status} (hholder : u.cal.edit.holder = some h) :
    u.answerOpen l st = u.answer l st (be16 u.cal.version ++ [linkCode h]) := by
  rw [State.answerOpen, State.openPayload, hholder]
  rfl

theorem State.takeOpenEdit_of_other (hother : h ≠ l) (hedit : u.cal.edit = .editing h sh idle) :
    u.takeOpenEdit l = u.answer l .busy (be16 u.cal.version ++ [linkCode h]) := by
  have hholder : u.cal.edit.holder = some h := by rw [hedit]; rfl
  rw [← State.answerOpen_of_holder hholder]
  simp only [State.takeOpenEdit, hedit, if_neg hother]

theorem State.takeOpenEdit_of_committing (hedit : u.cal.edit = .committing h sh broken) :
    u.takeOpenEdit l = u.answer l .busy (be16 u.cal.version ++ [linkCode h]) := by
  have hholder : u.cal.edit.holder = some h := by rw [hedit]; rfl
  rw [← State.answerOpen_of_holder hholder]
  simp only [State.takeOpenEdit, hedit]

end

/-! ## The command -/

theorem exec_openEdit_taken {s : State} {w : Nat} {l : Link} (tag : Byte) (hw : s.takesAt w l) :
    exec (.openEdit w l tag []) s =
      .next (((s.advance w).onLink l (LinkState.enter ⟨0x50, tag, []⟩)).takeOpenEdit l) :=
  exec_arrival_kind (k := .openEdit) rfl hw rfl rfl

/-- An edit set while the command is in the executing slot, and then its answer. -/
theorem State.enter_setEdit_answer (a : State) (l : Link) (c : Command) (e : Edit) (st : Status) (p : List Byte) :
    ((a.onLink l (LinkState.enter c)).setEdit e).answer l st p = (a.setEdit e).holding l c st p :=
  State.enter_work_answer a l c (fun u => u.setEdit e) st p (fun _ _ => rfl)

end Sys2Proof.Machine

namespace Sys2Proof.Proofs

open Sys2Proof.Machine

/-- Settles O46, by the edit state and the lock; entering the executing slot leaves the calibration block alone. -/
theorem openEditGivesOneHolder : Obligations.OpenEditGivesOneHolder := by
  intro s w l tag hw a c run edit
  have hrun : run = .next ((a.onLink l (LinkState.enter c)).takeOpenEdit l) := exec_openEdit_taken tag hw
  have hcal : (a.onLink l (LinkState.enter c)).cal = a.cal := a.onLink_cal l _
  rw [hrun]
  refine ⟨?unlocked, ?locked, ?holder, ?other, ?committing⟩
  case unlocked =>
    intro hedit hlock
    rw [State.takeOpenEdit_of_unlocked (hcal ▸ hedit) (hcal ▸ hlock), State.enter_setEdit_answer]
    rfl
  case locked =>
    intro hedit hlock
    rw [State.takeOpenEdit_of_locked (hcal ▸ hedit) (hcal ▸ hlock), State.enter_answer]
  case holder =>
    intro sh idle hedit
    rw [State.takeOpenEdit_of_holder (hcal ▸ hedit), State.enter_setEdit_answer]
    rfl
  case other =>
    intro h sh idle hother hedit
    rw [State.takeOpenEdit_of_other hother (hcal ▸ hedit), State.enter_answer, hcal]
  case committing =>
    intro h sh b hedit
    rw [State.takeOpenEdit_of_committing (hcal ▸ hedit), State.enter_answer, hcal]

end Sys2Proof.Proofs
end

section
/-! SUPPORT. The append of a record (R126, R128, R129, R131): a link whose cursor names the removed record, and the append
to a ring with room and to a full one. -/

namespace Sys2Proof.Machine

/-! ## A link at the removal of a record -/

theorem LinkState.passRemoved_of_ne {removed : Word} {k : LinkState} (h : k.cursor ≠ removed) :
    k.passRemoved removed = k :=
  if_neg h

/-- The cursor named the removed record: it moves on, and the GAP notice counts one record more (R131). -/
theorem LinkState.passRemoved_of_eq {removed : Word} {k : LinkState} (h : k.cursor = removed) :
    k.passRemoved removed =
      { k with
        cursor := removed + 1
        notices := { k.notices with gap := some (min 4294967295 (k.notices.gap.getD 0 + 1)) } } :=
  if_pos h

/-! ## The append, by the room in the ring -/

theorem State.removeOldest_of_cons {s : State} {q : SeqRecord} {rest : List SeqRecord} (h : s.ring.records = q :: rest) :
    s.removeOldest =
      { s with ring := { s.ring with records := rest }, links := s.links.map (LinkState.passRemoved q.seq) } := by
  rw [State.removeOldest, h]

theorem State.appendRecord_of_room {s : State} (record : Record) (h : s.ring.count < ringCapacity) :
    s.appendRecord record = { s with ring := s.ring.place record } := by
  rw [State.appendRecord, if_pos h]

theorem State.appendRecord_of_full {s : State} (record : Record) (h : ringCapacity ≤ s.ring.count) :
    s.appendRecord record = { s.removeOldest with ring := s.removeOldest.ring.place record } := by
  rw [State.appendRecord, if_neg (Nat.not_lt.mpr h)]

end Sys2Proof.Machine

namespace Sys2Proof.Proofs

open Sys2Proof.Machine

/-- Settles O13, by the room in the ring; the links of a full ring are those that have passed the removed record. -/
theorem appendPlacesTheRecordUnderNextSequence : Obligations.AppendPlacesTheRecordUnderNextSequence := by
  refine fun s record => ⟨State.appendRecord_of_room record, fun hfull q rest hrecords => ?full⟩
  case full =>
    refine ⟨s.links.map (LinkState.passRemoved q.seq), ?append, fun l => ?link⟩
    case append =>
      rw [State.appendRecord_of_full record hfull, State.removeOldest_of_cons hrecords]
      rfl
    case link =>
      rw [PerLink.get_map]
      exact ⟨LinkState.passRemoved_of_ne, LinkState.passRemoved_of_eq⟩

end Sys2Proof.Proofs
end

section
/-! SUPPORT. SEEK (R133 to R135): the classes of R127 by distance, what the command does by mode and by class, and the state
in which it stands answered. -/

namespace Sys2Proof.Machine

/-! ## The classes of R127 -/

/-- The four classes in the order in which their distances are tested. -/
theorem Ring.classOf_cases (r : Ring) (n : Word) :
    (r.classOf n = .inRing ∧ r.distance n < r.count)
      ∨ (r.classOf n = .next ∧ r.distance n = r.count)
      ∨ (r.classOf n = .beyond ∧ r.count < r.distance n ∧ r.distance n < 2147483648)
      ∨ (r.classOf n = .older ∧ 2147483648 ≤ r.distance n ∧ r.count < r.distance n) := by
  by_cases hin : r.distance n < r.count
  · exact .inl ⟨if_pos hin, hin⟩
  by_cases hnext : r.distance n = r.count
  · exact .inr (.inl ⟨(if_neg hin).trans (if_pos hnext), hnext⟩)
  have habove : r.count < r.distance n := by omega
  by_cases hbeyond : r.distance n < 2147483648
  · exact .inr (.inr (.inl ⟨(if_neg hin).trans ((if_neg hnext).trans (if_pos hbeyond)), habove, hbeyond⟩))
  · exact .inr (.inr (.inr
      ⟨(if_neg hin).trans ((if_neg hnext).trans (if_neg hbeyond)), Nat.not_lt.mp hbeyond, habove⟩))

/-- R127: each class is the one of its distances, since a record count stays below 2^31. -/
theorem Ring.classOf_iff {r : Ring} (n : Word) (h : r.count ≤ 4096) :
    (r.classOf n = .inRing ↔ r.distance n < r.count) ∧ (r.classOf n = .next ↔ r.distance n = r.count)
      ∧ (r.classOf n = .beyond ↔ r.count < r.distance n ∧ r.distance n < 2147483648)
      ∧ (r.classOf n = .older ↔ 2147483648 ≤ r.distance n) := by
  obtain ⟨hclass, hd⟩ | ⟨hclass, hd⟩ | ⟨hclass, hd⟩ | ⟨hclass, hd⟩ := r.classOf_cases n <;>
    simp only [hclass, reduceCtorEq, true_iff, false_iff] <;> omega

/-! ## The newest record -/

theorem Ring.newest_of_empty {r : Ring} (h : r.records = []) : r.newest = none := by
  rw [Ring.newest, h]
  rfl

theorem Ring.newest_of_append {r : Ring} {rest : List SeqRecord} {q : SeqRecord} (h : r.records = rest ++ [q]) :
    r.newest = some q.seq := by
  rw [Ring.newest, h, List.getLast?_concat]
  rfl

/-! ## What SEEK does, by mode and by class -/

section

variable {u : State} {l : Link} {n : Word}

theorem State.seekNewest_of_some (h : u.ring.newest = some n) :
    u.seekNewest l = (u.setCursor l n).answerSeek l .ok := by
  rw [State.seekNewest, h]

theorem State.seekNewest_of_none (h : u.ring.newest = none) :
    u.seekNewest l = (u.setCursor l u.ring.next).answerSeek l .adjusted := by
  rw [State.seekNewest, h]

theorem State.seekNumber_of_inRing_or_next (h : u.ring.classOf n = .inRing ∨ u.ring.classOf n = .next) :
    u.seekNumber l n = (u.setCursor l n).answerSeek l .ok := by
  rcases h with h | h <;> rw [State.seekNumber, h]

theorem State.seekNumber_of_older (h : u.ring.classOf n = .older) :
    u.seekNumber l n = (u.setCursor l u.ring.oldest).answerSeek l .adjusted := by
  rw [State.seekNumber, h]

theorem State.seekNumber_of_beyond (h : u.ring.classOf n = .beyond) : u.seekNumber l n = u.answerSeek l .range := by
  rw [State.seekNumber, h]

theorem State.takeSeek_oldest (u : State) (l : Link) (p : List Byte) :
    u.takeSeek l (0 :: p) = (u.setCursor l u.ring.oldest).answerSeek l .ok := rfl

theorem State.takeSeek_newest (u : State) (l : Link) (p : List Byte) : u.takeSeek l (1 :: p) = u.seekNewest l := rfl

theorem State.takeSeek_live (u : State) (l : Link) (p : List Byte) :
    u.takeSeek l (2 :: p) = (u.setCursor l u.ring.next).answerSeek l .ok := rfl

theorem State.takeSeek_number (u : State) (l : Link) (n : Word) : u.takeSeek l (3 :: be32 n) = u.seekNumber l n := by
  have hnumber : u32At ((3 : Byte) :: be32 n) 1 = n := by
    rw [u32At_cons, ← List.append_nil (be32 n), u32At_be32]
  calc u.takeSeek l (3 :: be32 n) = u.seekNumber l (u32At ((3 : Byte) :: be32 n) 1) := rfl
    _ = u.seekNumber l n := by rw [hnumber]

theorem State.takeSeek_undefined {mode : Byte} (p : List Byte) (h : 3 < mode.toNat) :
    u.takeSeek l (mode :: p) = u.answerSeek l .range := by
  have hmode : u8At (mode :: p) 0 = mode := rfl
  rw [State.takeSeek, hmode]
  split <;> first | omega | rfl

end

/-! ## The command -/

theorem exec_seek_taken {s : State} {w : Nat} {l : Link} (tag mode : Byte) (n : Word) (hw : s.takesAt w l) :
    exec (.seek w l tag (mode :: be32 n)) s =
      .next (((s.advance w).onLink l (LinkState.enter ⟨0x12, tag, mode :: be32 n⟩)).takeSeek l (mode :: be32 n)) :=
  exec_arrival_kind (c := ⟨0x12, tag, mode :: be32 n⟩) (k := .seek) rfl hw rfl rfl

/-- A cursor set while the command is in the executing slot, and then the answer that reports it. -/
theorem State.enter_setCursor_answerSeek (a : State) (l : Link) (c : Command) (cursor : Word) (st : Status) :
    ((a.onLink l (LinkState.enter c)).setCursor l cursor).answerSeek l st =
      (a.setCursor l cursor).holding l c st (seekPayload cursor a.ring) := by
  have hcursor : (((a.onLink l (LinkState.enter c)).setCursor l cursor).links.get l).cursor = cursor := by
    rw [State.setCursor, State.onLink_get_same]
  rw [State.answerSeek, hcursor]
  exact a.enter_change_answer l c _ _ _ (fun _ => rfl)

theorem State.setCursor_self (a : State) (l : Link) : a.setCursor l (a.links.get l).cursor = a := by
  cases l <;> rfl

/-- A refused SEEK reports the cursor that stands. -/
theorem State.enter_answerSeek (a : State) (l : Link) (c : Command) (st : Status) :
    (a.onLink l (LinkState.enter c)).answerSeek l st =
      (a.setCursor l (a.links.get l).cursor).holding l c st (seekPayload (a.links.get l).cursor a.ring) := by
  have hcursor : ((a.onLink l (LinkState.enter c)).links.get l).cursor = (a.links.get l).cursor := by
    rw [State.onLink_get_same]
    rfl
  rw [State.answerSeek, hcursor, State.enter_answer, State.setCursor_self, State.onLink_ring]

end Sys2Proof.Machine

namespace Sys2Proof.Proofs

open Sys2Proof.Machine

/-- Settles O37, by the mode and the class; entering the executing slot leaves the ring alone. -/
theorem seekPlacesTheCursor : Obligations.SeekPlacesTheCursor := by
  refine ⟨fun _ n hcount => Ring.classOf_iff n hcount, ?command⟩
  intro s w l tag mode n hw a c go here run
  have hrun : run = .next ((a.onLink l (LinkState.enter c)).takeSeek l (mode :: be32 n)) :=
    exec_seek_taken tag mode n hw
  have hring : (a.onLink l (LinkState.enter c)).ring = a.ring := a.onLink_ring l _
  have hgo (cursor : Word) (st : Status) :
      .next (((a.onLink l (LinkState.enter c)).setCursor l cursor).answerSeek l st) = go cursor st :=
    congrArg _ (a.enter_setCursor_answerSeek l c cursor st)
  have hstay : .next ((a.onLink l (LinkState.enter c)).answerSeek l .range) = go here .range :=
    congrArg _ (a.enter_answerSeek l c .range)
  refine ⟨?oldest, ?newest, ?newestOfEmpty, ?live, ?numberHeld, ?numberOlder, ?numberBeyond, ?undefined⟩
  case oldest =>
    rintro rfl
    rw [hrun, State.takeSeek_oldest, hring, hgo]
  case newest =>
    rintro rfl q rest hrecords
    rw [hrun, State.takeSeek_newest, State.seekNewest_of_some (hring ▸ Ring.newest_of_append hrecords), hgo]
  case newestOfEmpty =>
    rintro rfl hrecords
    rw [hrun, State.takeSeek_newest, State.seekNewest_of_none (hring ▸ Ring.newest_of_empty hrecords), hring, hgo]
  case live =>
    rintro rfl
    rw [hrun, State.takeSeek_live, hring, hgo]
  case numberHeld =>
    rintro rfl hclass
    rw [hrun, State.takeSeek_number, State.seekNumber_of_inRing_or_next (hring ▸ hclass), hgo]
  case numberOlder =>
    rintro rfl hclass
    rw [hrun, State.takeSeek_number, State.seekNumber_of_older (hring ▸ hclass), hring, hgo]
  case numberBeyond =>
    rintro rfl hclass
    rw [hrun, State.takeSeek_number, State.seekNumber_of_beyond (hring ▸ hclass), hstay]
  case undefined =>
    intro hmode
    rw [hrun, State.takeSeek_undefined _ hmode, hstay]

end Sys2Proof.Proofs
end

section
/-! SUPPORT. READ RECORDS (R162, R165): the end test on an executing transfer, what the command does by its count, and the
transfer with which it stands in the executing slot. -/

namespace Sys2Proof.Machine

/-! ## The end test -/

section

variable {next : Word} {k : LinkState} {c : Command} {reply : Option Reply} {t : Transfer}

theorem LinkState.endTest_of_done (hexec : k.executing = some ⟨c, reply, some t⟩)
    (hdone : t.requested ≤ t.delivered ∨ k.cursor = next) :
    k.endTest next =
      { k with
        executing := some ⟨c, some ⟨.ok, transferPayload t.delivered k.cursor next⟩, some { t with phase := .ended }⟩ } := by
  simp only [LinkState.endTest, hexec, if_pos hdone]

theorem LinkState.endTest_of_more (hexec : k.executing = some ⟨c, reply, some t⟩) (hcount : t.delivered < t.requested)
    (hbehind : k.cursor ≠ next) : k.endTest next = k := by
  have hmore : ¬ (t.requested ≤ t.delivered ∨ k.cursor = next) := not_or.mpr ⟨Nat.not_le.mpr hcount, hbehind⟩
  simp only [LinkState.endTest, hexec, if_neg hmore]

end

/-! ## What READ RECORDS does, by its count -/

section

variable {u : State} {l : Link}

theorem State.takeReadRecords_zero (p : List Byte) :
    u.takeReadRecords l (0 :: p) = u.answer l .range (transferPayload 0 (u.links.get l).cursor u.ring.next) := rfl

theorem State.takeReadRecords_of_ne_zero {n : Byte} (p : List Byte) (h : n.toNat ≠ 0) :
    u.takeReadRecords l (n :: p) =
      u.onLink l (fun k => (k.startTransfer (min maxTransfer n.toNat)).endTest u.ring.next) :=
  if_neg h

end

/-! ## A transfer started as its command enters the executing slot -/

/-- The requested count as given, and 0 delivered (R162). -/
theorem LinkState.startTransfer_enter_executing (c : Command) (requested : Nat) (k : LinkState) :
    ((LinkState.enter c k).startTransfer requested).executing = some ⟨c, none, some ⟨requested, 0, .running⟩⟩ := rfl

/-- A link that is caught up has nothing to transfer: the end test ends the transfer at its start. -/
theorem LinkState.endTest_startTransfer_caughtUp {next : Word} {k : LinkState} (c : Command) (requested : Nat)
    (h : k.cursor = next) :
    ((LinkState.enter c k).startTransfer requested).endTest next =
      { k with executing := some ⟨c, some ⟨.ok, transferPayload 0 k.cursor next⟩, some ⟨requested, 0, .ended⟩⟩ } :=
  LinkState.endTest_of_done (LinkState.startTransfer_enter_executing c requested k) (.inr h)

theorem LinkState.endTest_startTransfer_behind {next : Word} {k : LinkState} (c : Command) {requested : Nat}
    (hcount : 0 < requested) (h : k.cursor ≠ next) :
    ((LinkState.enter c k).startTransfer requested).endTest next =
      { k with executing := some ⟨c, none, some ⟨requested, 0, .running⟩⟩ } :=
  LinkState.endTest_of_more (LinkState.startTransfer_enter_executing c requested k) hcount h

/-! ## The command -/

theorem exec_readRecords_taken {s : State} {w : Nat} {l : Link} (tag n : Byte) (hw : s.takesAt w l) :
    exec (.readRecords w l tag [n]) s =
      .next (((s.advance w).onLink l (LinkState.enter ⟨0x10, tag, [n]⟩)).takeReadRecords l [n]) :=
  exec_arrival_kind (c := ⟨0x10, tag, [n]⟩) (k := .readRecords) rfl hw rfl rfl

/-- The command enters the slot, starts its transfer and makes the end test, as one change of its link. -/
theorem State.enter_takeReadRecords (a : State) (l : Link) (c : Command) {n : Byte} (h : n.toNat ≠ 0) :
    (a.onLink l (LinkState.enter c)).takeReadRecords l [n] =
      a.onLink l (fun k => ((LinkState.enter c k).startTransfer (min maxTransfer n.toNat)).endTest a.ring.next) := by
  rw [State.takeReadRecords_of_ne_zero [] h, State.onLink_onLink, State.onLink_ring]

end Sys2Proof.Machine

namespace Sys2Proof.Proofs

open Sys2Proof.Machine

/-- Settles O35, by the count and by whether the link is caught up. -/
theorem readRecordsStartsATransfer : Obligations.ReadRecordsStartsATransfer := by
  intro s w l tag n hw a c cursor reply run
  have hrun : run = .next ((a.onLink l (LinkState.enter c)).takeReadRecords l [n]) :=
    exec_readRecords_taken tag n hw
  have hcount (hn : n ≠ 0) : n.toNat ≠ 0 := BitVec.toNat_ne.mp hn
  rw [hrun]
  refine ⟨?refused, fun hn hcaught => ?caughtUp, fun hn hbehind => ?behind⟩
  case refused =>
    rintro rfl
    rw [State.takeReadRecords_zero, State.enter_answer, State.onLink_get_same, State.onLink_ring]
    rfl
  case caughtUp =>
    rw [State.enter_takeReadRecords a l c (hcount hn)]
    exact congrArg _ (a.onLink_congr l _ _ (LinkState.endTest_startTransfer_caughtUp c _ hcaught))
  case behind =>
    have hrequested : 0 < min maxTransfer n.toNat := Nat.lt_min.mpr ⟨by decide, Nat.pos_of_ne_zero (hcount hn)⟩
    rw [State.enter_takeReadRecords a l c (hcount hn)]
    exact congrArg _ (a.onLink_congr l _ _ (LinkState.endTest_startTransfer_behind c hrequested hbehind))

end Sys2Proof.Proofs
end

section
/-! SUPPORT. STREAM (R169): what the command does by its value, and the state in which it stands answered. -/

namespace Sys2Proof.Machine

/-! ## What STREAM does, by its value -/

section

variable {u : State} {l : Link}

theorem State.takeStream_off (tag : Byte) (p : List Byte) :
    u.takeStream l tag (0 :: p) = (u.onLink l (fun k => { k with stream := false })).answerStream l .ok := rfl

theorem State.takeStream_on (tag : Byte) (p : List Byte) :
    u.takeStream l tag (1 :: p) =
      (u.onLink l (fun k => { k with stream := true, streamTag := tag })).answerStream l .ok := rfl

theorem State.takeStream_undefined {v : Byte} (tag : Byte) (p : List Byte) (h : 1 < v.toNat) :
    u.takeStream l tag (v :: p) = u.answerStream l .range := by
  have hvalue : u8At (v :: p) 0 = v := rfl
  rw [State.takeStream, hvalue]
  split
  · omega
  · omega
  · rfl

end

/-! ## The command -/

/-- The stream flag as the byte that Table 11-3 gives it. -/
theorem byteOf_bitAt_zero (on : Bool) : byteOf (bitAt 0 on) = if on then 1 else 0 := by
  cases on <;> rfl

theorem exec_stream_taken {s : State} {w : Nat} {l : Link} (tag v : Byte) (hw : s.takesAt w l) :
    exec (.stream w l tag [v]) s =
      .next (((s.advance w).onLink l (LinkState.enter ⟨0x11, tag, [v]⟩)).takeStream l tag [v]) :=
  exec_arrival_kind (c := ⟨0x11, tag, [v]⟩) (k := .stream) rfl hw rfl rfl

/-- A change of the stream while the command is in the executing slot, and then the answer that reports it. -/
theorem State.enter_change_answerStream (a : State) (l : Link) (c : Command) (f : LinkState → LinkState) (st : Status)
    (hf : ∀ k, f (LinkState.enter c k) = LinkState.enter c (f k)) :
    ((a.onLink l (LinkState.enter c)).onLink l f).answerStream l st =
      (a.onLink l f).holding l c st
        (streamPayload (f (a.links.get l)).stream (f (a.links.get l)).cursor a.ring.next) := by
  have hlink : ((a.onLink l (LinkState.enter c)).onLink l f).links.get l = LinkState.enter c (f (a.links.get l)) := by
    rw [State.onLink_get_same, State.onLink_get_same, hf]
  rw [State.answerStream, hlink]
  exact a.enter_change_answer l c f st _ hf

/-- A refused STREAM reports the values that stand. -/
theorem State.enter_answerStream (a : State) (l : Link) (c : Command) (st : Status) :
    (a.onLink l (LinkState.enter c)).answerStream l st =
      a.holding l c st (streamPayload (a.links.get l).stream (a.links.get l).cursor a.ring.next) := by
  rw [State.answerStream, State.onLink_get_same, State.enter_answer]
  rfl

end Sys2Proof.Machine

namespace Sys2Proof.Proofs

open Sys2Proof.Machine

/-- Settles O36, by the value; entering the executing slot leaves flag, tag and cursor alone. -/
theorem streamSetsFlagAndTag : Obligations.StreamSetsFlagAndTag := by
  intro s w l tag v hw a c reply run
  have hrun : run = .next ((a.onLink l (LinkState.enter c)).takeStream l tag [v]) := exec_stream_taken tag v hw
  rw [hrun]
  refine ⟨?off, ?on, fun hoff hon => ?undefined⟩
  case off =>
    rintro rfl
    rw [State.takeStream_off]
    exact congrArg _ (a.enter_change_answerStream l c (fun k => { k with stream := false }) .ok (fun _ => rfl))
  case on =>
    rintro rfl
    rw [State.takeStream_on]
    exact congrArg _
      (a.enter_change_answerStream l c (fun k => { k with stream := true, streamTag := tag }) .ok (fun _ => rfl))
  case undefined =>
    have hvalue : 1 < v.toNat := by bv_omega
    rw [State.takeStream_undefined tag [] hvalue, State.enter_answerStream, streamPayload, byteOf_bitAt_zero]

end Sys2Proof.Proofs
end

section
/-! SUPPORT. A link's notices (R173, R174): which kinds are pending, bit by bit, and ATTN as one enabled pending kind. -/

namespace Sys2Proof.Machine

/-! ## The kinds pending and ATTN -/

/-- Which of the nine kinds are pending, in the order of their codes (Table 10-1). -/
def NoticeSet.pendingKinds (n : NoticeSet) : List Bool :=
  [n.clock.isSome, n.step.isSome, n.gap.isSome, n.temp.isSome, n.calib.isSome, n.baseline.isSome, n.editExpired,
    n.mark.isSome, n.labelConflict]

/-- Each kind has its own bit in the set that ATTN and the replies are made from (section 11.1). -/
theorem NoticeSet.bits_getLsbD (n : NoticeSet) (i : Fin 16) :
    n.bits.getLsbD i = n.pendingKinds.getD i false :=
  bits_of_nine _ _ _ _ _ _ _ _ _ i

theorem half_ne_zero_iff_exists_bit (v : Half) : v ≠ 0 ↔ ∃ i : Fin 16, v.getLsbD i = true := by
  constructor
  · intro hne
    refine Classical.byContradiction fun hnone => hne (BitVec.eq_of_getLsbD_eq fun i hi => ?_)
    have hclear : v.getLsbD i = false := Bool.eq_false_iff.mpr fun hbit => hnone ⟨⟨i, hi⟩, hbit⟩
    exact hclear.trans BitVec.getLsbD_zero.symm
  · rintro ⟨i, hbit⟩ rfl
    exact Bool.false_ne_true (BitVec.getLsbD_zero.symm.trans hbit)

/-- ATTN (R174): some kind is both pending and enabled. -/
theorem LinkState.attn_iff_exists_kind (k : LinkState) :
    k.attn = true ↔ ∃ i : Fin 16, k.notices.pendingKinds.getD i false = true ∧ k.mask.getLsbD i = true :=
  calc k.attn = true
    _ ↔ k.notices.bits &&& k.mask ≠ 0 := by
      simp only [LinkState.attn, Bool.not_eq_true', decide_eq_false_iff_not, ne_eq]
    _ ↔ ∃ i : Fin 16, (k.notices.bits &&& k.mask).getLsbD i = true := half_ne_zero_iff_exists_bit _
    _ ↔ ∃ i : Fin 16, k.notices.pendingKinds.getD i false = true ∧ k.mask.getLsbD i = true := by
      simp only [BitVec.getLsbD_and, Bool.and_eq_true, NoticeSet.bits_getLsbD]

/-! ## What a raised notice does to the set -/

section

variable (n : NoticeSet)

theorem NoticeSet.raise_clock (c : ClockState) : n.raise (.clock c) = { n with clock := some c } := rfl

theorem NoticeSet.raise_step (k : StepKind) (sn : Word) : n.raise (.step k sn) = { n with step := some (k, sn) } := rfl

/-- GAP alone adds to the detail held, up to 2^32 − 1. -/
theorem NoticeSet.raise_gap (m : Nat) :
    n.raise (.gap m) = { n with gap := some (min 4294967295 (n.gap.getD 0 + m)) } := rfl

theorem NoticeSet.raise_temp (ch : Channel) (h : Health) : n.raise (.temp ch h) = { n with temp := some (ch, h) } := rfl

theorem NoticeSet.raise_calib (v : Half) : n.raise (.calib v) = { n with calib := some v } := rfl

theorem NoticeSet.raise_baseline (l : Link) : n.raise (.baseline l) = { n with baseline := some l } := rfl

theorem NoticeSet.raise_editExpired : n.raise .editExpired = { n with editExpired := true } := rfl

theorem NoticeSet.raise_mark (src : MarkSource) : n.raise (.mark src) = { n with mark := some src } := rfl

theorem NoticeSet.raise_labelConflict : n.raise .labelConflict = { n with labelConflict := true } := rfl

end

theorem LinkState.raise_eq (x : Notice) (k : LinkState) :
    LinkState.raise x k = { k with notices := k.notices.raise x } := rfl

end Sys2Proof.Machine

namespace Sys2Proof.Proofs

open Sys2Proof.Machine

/-- Settles O40: ATTN by the bits of the nine kinds, bits 9..15 naming none, and each notice by the equation of its kind. -/
theorem raisingANoticeSetsItsEntryAlone : Obligations.RaisingANoticeSetsItsEntryAlone := by
  refine ⟨?attn, LinkState.raise_eq, fun n => ?entries⟩
  case attn =>
    intro k on
    rw [LinkState.attn_iff_exists_kind]
    simp only [Fin.exists_fin_succ, NoticeSet.pendingKinds, List.getD_cons_zero, List.getD_cons_succ, List.getD_nil,
      Fin.val_zero, Fin.val_succ, Nat.zero_add, Nat.reduceAdd, Option.isSome_iff_ne_none, Bool.false_eq_true, false_and,
      exists_const, or_false, on]
  case entries =>
    exact ⟨n.raise_clock, n.raise_step, n.raise_gap, n.raise_temp, n.raise_calib, n.raise_baseline,
      n.raise_editExpired, n.raise_mark, n.raise_labelConflict⟩

end Sys2Proof.Proofs
end

section
/-! SUPPORT. What the events of the time scale leave alone (R12, R24): a boundary, a PPS edge and a midpoint mark touch
Epoch Timer, Discipline Controller, conversions, slot and OSC flags, and of a link the CLOCK and STEP notices alone. -/

namespace Sys2Proof.Machine

/-- A link with other CLOCK and STEP entries, and nothing else changed. -/
def LinkState.SameButScaleNotices (k' k : LinkState) : Prop :=
  ∃ clock step, k' = { k with notices := { k.notices with clock := clock, step := step } }

/-- What no event of the time scale touches is the same in both states. -/
structure State.ScaleFrame (u s : State) : Prop where
  powered : u.powered = s.powered
  axes : u.axes = s.axes
  store : u.store = s.store
  ring : u.ring = s.ring
  resetWaiting : u.resetWaiting = s.resetWaiting
  replaced : u.replaced = s.replaced
  earlier : u.earlier = s.earlier
  pending : u.pending = s.pending
  cal : u.cal = { s.cal with oscVoid := u.cal.oscVoid, oscClamp := u.cal.oscClamp }
  links : ∀ l, (u.links.get l).SameButScaleNotices (s.links.get l)

theorem LinkState.SameButScaleNotices.refl (k : LinkState) : k.SameButScaleNotices k := ⟨_, _, rfl⟩

theorem LinkState.SameButScaleNotices.trans {a b c : LinkState} (h : a.SameButScaleNotices b)
    (g : b.SameButScaleNotices c) : a.SameButScaleNotices c := by
  obtain ⟨clock, step, rfl⟩ := h
  obtain ⟨_, _, rfl⟩ := g
  exact ⟨clock, step, rfl⟩

namespace State.ScaleFrame

theorem refl (s : State) : s.ScaleFrame s := ⟨rfl, rfl, rfl, rfl, rfl, rfl, rfl, rfl, rfl, fun _ => .refl _⟩

theorem trans {a b c : State} (h : a.ScaleFrame b) (g : b.ScaleFrame c) : a.ScaleFrame c :=
  ⟨h.powered.trans g.powered, h.axes.trans g.axes, h.store.trans g.store, h.ring.trans g.ring,
    h.resetWaiting.trans g.resetWaiting, h.replaced.trans g.replaced, h.earlier.trans g.earlier,
    h.pending.trans g.pending, by rw [h.cal, g.cal], fun l => (h.links l).trans (g.links l)⟩

/-- A notice on all links that is CLOCK or STEP. -/
theorem raiseAll (s : State) {n : Notice} (hn : ∀ k, (LinkState.raise n k).SameButScaleNotices k) :
    (s.raiseAll n).ScaleFrame s :=
  ⟨rfl, rfl, rfl, rfl, rfl, rfl, rfl, rfl, rfl, fun l => by rw [State.raiseAll_links, PerLink.get_map]; exact hn _⟩

theorem boundary (s : State) (isStep : Bool) (sn : Word) : (s.boundary isStep sn).ScaleFrame s := by
  have h := s.boundary_outcome isStep sn
  obtain ⟨hpowered, haxes, hstore, hring, hreset, -, hreplaced, hearlier, -, hpending⟩ := h.rest
  refine ⟨hpowered, haxes, hstore, hring, hreset, hreplaced, hearlier, hpending, by rw [h.cal], fun l => ?_⟩
  by_cases hsn : (s.boundary isStep sn).epoch.sn = sn <;> cases isStep
  · rw [h.quiet rfl hsn]; exact .refl _
  · rw [h.phaseStep rfl hsn, PerLink.get_map]; exact ⟨_, _, rfl⟩
  · rw [h.labelStep rfl hsn, PerLink.get_map]; exact ⟨_, _, rfl⟩
  · rw [h.bothSteps rfl hsn, PerLink.get_map]; exact ⟨_, _, rfl⟩

theorem phaseStep (s : State) (p : Int) : (s.phaseStep p).ScaleFrame s := boundary s _ _

theorem enterClock (s : State) (c : ClockState) : (s.enterClock c).ScaleFrame s :=
  (raiseAll { s with disc := s.disc.enter c } (fun _ => ⟨_, _, rfl⟩)).trans
    ⟨rfl, rfl, rfl, rfl, rfl, rfl, rfl, rfl, rfl, fun _ => .refl _⟩

/-- Another Discipline Controller. -/
theorem setDisc (s : State) (d : Discipline) : State.ScaleFrame { s with disc := d } s :=
  ⟨rfl, rfl, rfl, rfl, rfl, rfl, rfl, rfl, rfl, fun _ => .refl _⟩

theorem trackUpdate (s : State) (p : Int) : (s.trackUpdate p).ScaleFrame s :=
  ⟨rfl, rfl, rfl, rfl, rfl, rfl, rfl, rfl, rfl, fun _ => .refl _⟩

theorem acquireUpdate (s : State) (p : Int) : (s.acquireUpdate p).ScaleFrame s := by
  have hadj : ∀ d, (State.setAdjustment { s with disc := d } p).ScaleFrame s := fun _ =>
    ⟨rfl, rfl, rfl, rfl, rfl, rfl, rfl, rfl, rfl, fun _ => .refl _⟩
  unfold State.acquireUpdate
  dsimp only
  split
  · exact (setDisc _ _).trans ((enterClock _ _).trans (hadj _))
  · exact hadj _

theorem outlierEdge (s : State) (p : Int) : (s.outlierEdge p).ScaleFrame s := by
  unfold State.outlierEdge
  dsimp only
  split
  · exact (phaseStep _ _).trans ((enterClock _ _).trans (setDisc _ _))
  · exact setDisc _ _

theorem evaluateEdge (s : State) (p : Int) : (s.evaluateEdge p).ScaleFrame s := by
  unfold State.evaluateEdge
  split
  · exact (phaseStep _ _).trans (enterClock _ _)
  · split
    · exact acquireUpdate _ _
    · exact (phaseStep _ _).trans (setDisc _ _)
  · split
    · exact trackUpdate _ _
    · exact outlierEdge _ _
  · split
    · exact (trackUpdate _ _).trans (enterClock _ _)
    · exact (phaseStep _ _).trans (enterClock _ _)

theorem ppsRecognised (s : State) : s.ppsRecognised.ScaleFrame s := by
  have hset : ∀ d p, State.ScaleFrame { s with samples := p, disc := d } s := fun _ _ =>
    ⟨rfl, rfl, rfl, rfl, rfl, rfl, rfl, rfl, rfl, fun _ => .refl _⟩
  unfold State.ppsRecognised
  dsimp only
  split
  · exact hset _ _
  · exact (evaluateEdge _ _).trans (hset _ _)

theorem missingWindow (s : State) : s.missingWindow.ScaleFrame s := by
  unfold State.missingWindow
  split
  · exact refl s
  · dsimp only
    split
    · exact (enterClock _ _).trans (setDisc _ _)
    · exact setDisc _ _
  · dsimp only
    split
    · exact (enterClock _ _).trans (setDisc _ _)
    · exact setDisc _ _
  · exact refl s

theorem closeWindow (s : State) : s.markIssued.closeWindow.ScaleFrame s := by
  have hissued : s.markIssued.ScaleFrame s := ⟨rfl, rfl, rfl, rfl, rfl, rfl, rfl, rfl, rfl, fun _ => .refl _⟩
  unfold State.closeWindow
  dsimp only
  split
  · exact (setDisc _ _).trans hissued
  · exact (setDisc _ _).trans ((missingWindow _).trans hissued)

end State.ScaleFrame

/-! ## The assembler and the ring at a strobe -/

@[simp] theorem State.openSlotIfDue_ring (s : State) (k : Nat) : (s.openSlotIfDue k).ring = s.ring := by
  unfold State.openSlotIfDue
  split <;> rfl

@[simp] theorem State.strobed_ring (s : State) (k : Nat) (codeX codeY codeZ : Int) (d : Bool) :
    (s.strobed k codeX codeY codeZ d).ring = s.ring :=
  State.openSlotIfDue_ring s.markIssued.keepReplaced k

/-- A strobe completes no slot, or appends the record of one. -/
theorem State.completeIfDue_cases (s : State) (k : Nat) :
    s.completeIfDue k = s ∨ ∃ sl, s.asm.slot = some sl ∧ k = 4 ∧ sl.arrived = true ∧ s.completeIfDue k = s.complete sl := by
  unfold State.completeIfDue
  split
  · exact .inl rfl
  · next sl hsl =>
    split
    · next h =>
      simp only [Bool.and_eq_true, decide_eq_true_eq] at h
      exact .inr ⟨sl, hsl, h.1, h.2, rfl⟩
    · exact .inl rfl

/-- At a strobe the ring and the cursors change as by an append, or not at all. -/
theorem State.strobeWork_append (s : State) (k : Nat) (codeX codeY codeZ : Int) (d : Bool) :
    s.strobeWork k codeX codeY codeZ d = s.strobed k codeX codeY codeZ d
      ∨ ∃ sl asm, (s.strobed k codeX codeY codeZ d).asm.slot = some sl ∧ k = 4 ∧ sl.arrived = true
        ∧ asm.slot = none ∧ s.strobeWork k codeX codeY codeZ d =
          State.appendRecord { s.strobed k codeX codeY codeZ d with asm := asm }
            ((s.strobed k codeX codeY codeZ d).recordOf sl) := by
  rw [State.strobeWork_eq]
  rcases State.completeIfDue_cases (s.strobed k codeX codeY codeZ d) k with h | ⟨sl, hsl, hk, harrived, h⟩
  · exact .inl h
  · exact .inr ⟨sl, _, hsl, hk, harrived, rfl, h⟩

/-- Before the completion a strobe changes of a link the executing command's reply alone (R56). -/
theorem State.strobed_links (s : State) (k : Nat) (codeX codeY codeZ : Int) (d : Bool) (l : Link) :
    (s.strobed k codeX codeY codeZ d).links.get l
      = { s.links.get l with executing := ((s.strobed k codeX codeY codeZ d).links.get l).executing } := by
  unfold State.strobed
  dsimp only
  rw [reviseReplies_get, reviseReplies_get, reviseReplies_get]

end Sys2Proof.Machine
end

section
/-! SUPPORT. Ring and cursors under every event (R125, R126, R130): which events leave both alone, where SEEK, a delivery and
the removal of the oldest record place a cursor, and what the append does to the bound. -/

namespace Sys2Proof.Machine

/-! ## Cursors that stay, and cursors placed within the ring -/

/-- Every cursor is the same in both states, or lies between the oldest position and next sequence. -/
def State.CursorsFollow (u s : State) : Prop :=
  ∀ l, (u.links.get l).cursor = (s.links.get l).cursor ∨ s.ring.distance (u.links.get l).cursor ≤ s.ring.count

namespace State.CursorsFollow

/-- A change of one link that leaves its cursor alone. -/
theorem onLink (s : State) (l : Link) {f : LinkState → LinkState} (hf : ∀ k, (f k).cursor = k.cursor) :
    (s.onLink l f).CursorsFollow s := by
  intro m
  by_cases hm : m = l
  · subst hm
    exact .inl (by rw [State.onLink_get_same, hf])
  · exact .inl (by rw [State.onLink_get_other s hm])

/-- A change of all links that leaves their cursors alone. -/
theorem map {u s : State} {f : LinkState → LinkState} (hu : u.links = s.links.map f) (hf : ∀ k, (f k).cursor = k.cursor) :
    u.CursorsFollow s := fun l => .inl (by rw [hu, PerLink.get_map, hf])

theorem same {u s : State} (h : u.links = s.links) : u.CursorsFollow s := fun l => .inl (by rw [h])

theorem trans {a b c : State} (h : a.CursorsFollow b) (g : b.CursorsFollow c) (hring : b.ring = c.ring) :
    a.CursorsFollow c := by
  intro l
  rcases h l with h | h
  · rw [h]; exact g l
  · exact .inr (hring ▸ h)

theorem thenOnLink {u s : State} (l : Link) {f : LinkState → LinkState} (hf : ∀ k, (f k).cursor = k.cursor)
    (h : u.CursorsFollow s) (hring : u.ring = s.ring) : (u.onLink l f).CursorsFollow s :=
  (onLink u l hf).trans h hring

theorem answer {u s : State} (l : Link) (st : Status) (p : List Byte) (h : u.CursorsFollow s) (hring : u.ring = s.ring) :
    (u.answer l st p).CursorsFollow s := thenOnLink (f := LinkState.answer st p) l (fun _ => rfl) h hring

theorem answer_self (s : State) (l : Link) (st : Status) (p : List Byte) : (s.answer l st p).CursorsFollow s :=
  onLink s l (fun _ => rfl)

/-- A cursor placed between the oldest position and next sequence (R133). -/
theorem setCursor (s : State) (l : Link) {c : Word} (hc : s.ring.distance c ≤ s.ring.count) :
    (s.setCursor l c).CursorsFollow s := by
  intro m
  by_cases hm : m = l
  · subst hm
    exact .inr (by rw [State.setCursor, State.onLink_get_same]; exact hc)
  · exact .inl (by rw [State.setCursor, State.onLink_get_other s hm])

theorem answerSeek {u s : State} (l : Link) (st : Status) (h : u.CursorsFollow s) (hring : u.ring = s.ring) :
    (u.answerSeek l st).CursorsFollow s := answer l st _ h hring

end State.CursorsFollow

/-- The bound of R130 goes over to a state with the same ring whose cursors follow. -/
theorem State.CursorsFollow.bound {u s : State} (h : u.CursorsFollow s) (hring : u.ring = s.ring)
    (hs : s.CursorsBound) : u.CursorsBound := by
  intro l
  rw [hring]
  rcases h l with h | h
  · rw [h]; exact hs l
  · exact h

/-! ## Store writes leave the links alone -/

@[simp] theorem State.startWrite_links (s : State) (k : WriteKind) : (s.startWrite k).links = s.links := by
  cases k <;> rfl

@[simp] theorem State.requestWrite_links (s : State) (k : WriteKind) : (s.requestWrite k).links = s.links := by
  cases k <;> simp only [State.requestWrite] <;> split <;> rfl

@[simp] theorem State.chooseWrite_links (s : State) : s.chooseWrite.links = s.links := by
  unfold State.chooseWrite
  split
  · rfl
  · split
    · rfl
    · split <;> rfl

/-! ## SEEK -/

theorem Ring.distance_newest {r : Ring} (h : r.Sound) {n : Word} (hn : r.newest = some n) : r.distance n ≤ r.count := by
  unfold Ring.newest at hn
  rw [List.getLast?_eq_getElem?] at hn
  obtain ⟨q, hq, rfl⟩ := Option.map_eq_some_iff.mp hn
  have hlt : r.count - 1 < r.count := by
    obtain ⟨hlt, -⟩ := List.getElem?_eq_some_iff.mp hq
    unfold Ring.count
    omega
  have hmost := h.atMost
  unfold Ring.distance
  rw [runsFrom_seq h.noGap hq]
  unfold Ring.count at *
  bv_omega

theorem Ring.distance_of_inRing_or_next {r : Ring} {n : Word} (h : r.classOf n = .inRing ∨ r.classOf n = .next) :
    r.distance n ≤ r.count := by
  obtain ⟨hclass, hd⟩ | ⟨hclass, hd⟩ | ⟨hclass, hd⟩ | ⟨hclass, hd⟩ := r.classOf_cases n
  · omega
  · omega
  · simp only [hclass, reduceCtorEq, or_self] at h
  · simp only [hclass, reduceCtorEq, or_self] at h

/-- SEEK places the cursor between the oldest position and next sequence, or leaves it (Table 7-2). -/
theorem State.takeSeek_cursorsFollow {s : State} (h : s.ring.Sound) (l : Link) (p : List Byte) :
    (s.takeSeek l p).CursorsFollow s := by
  have place : ∀ {c : Word} (st : Status), s.ring.distance c ≤ s.ring.count →
      ((s.setCursor l c).answerSeek l st).CursorsFollow s := fun st hc => .answerSeek l st (.setCursor s l hc) rfl
  have hold : s.ring.distance s.ring.oldest ≤ s.ring.count := by rw [Ring.distance_oldest]; exact Nat.zero_le _
  have hnext : s.ring.distance s.ring.next ≤ s.ring.count := Nat.le_of_eq h.distance_next
  unfold State.takeSeek
  split
  · exact place _ hold
  · unfold State.seekNewest
    split
    · next hn => exact place _ (Ring.distance_newest h hn)
    · exact place _ hnext
  · exact place _ hnext
  · unfold State.seekNumber
    split
    · next hc => exact place _ (Ring.distance_of_inRing_or_next (.inl hc))
    · next hc => exact place _ (Ring.distance_of_inRing_or_next (.inr hc))
    · exact place _ hold
    · exact .answer_self _ _ _ _
  · exact .answer_self _ _ _ _

/-! ## The other station commands -/

theorem LinkState.endTest_cursor (next : Word) (k : LinkState) : (k.endTest next).cursor = k.cursor := by
  unfold LinkState.endTest
  split
  · rfl
  · split
    · rfl
    · split <;> rfl

theorem LinkState.offer_cursor (c : Capture) (k : LinkState) : (k.offer c).cursor = k.cursor := by
  unfold LinkState.offer
  split <;> rfl

theorem LinkState.wait_cursor (c : Command) (k : LinkState) : (k.wait c).cursor = k.cursor := by
  unfold LinkState.wait
  split <;> rfl

/-- An edit write answers, and moves no cursor. -/
theorem State.editWrite_cursorsFollow (s : State) (l : Link) (write : CalSet → Option CalSet) :
    (s.editWrite l write).CursorsFollow s := by
  unfold State.editWrite
  split
  · exact .answer_self _ _ _ _
  · split
    · split <;> exact .answer l _ _ (.same rfl) rfl
    · exact .answer_self _ _ _ _
  · split <;> exact .answer_self _ _ _ _

theorem State.answerTable_cursorsFollow (s : State) (l : Link) (p : List Byte) (c : CalSet) :
    (s.answerTable l p c).CursorsFollow s := by
  unfold State.answerTable
  split <;> exact .answer_self _ _ _ _

theorem State.raiseOthers_cursorsFollow (s : State) (l : Link) (n : Notice) : (s.raiseOthers l n).CursorsFollow s := by
  have raise : ∀ (u : State) m, (u.raiseOn m n).CursorsFollow u := fun u m => .onLink u m (fun _ => rfl)
  cases l <;> exact (raise _ _).trans (raise _ _) rfl

/-- A station command moves a cursor by SEEK alone. -/
theorem State.takeKind_cursorsFollow {s : State} (h : s.ring.Sound) (l : Link) (k : Kind) (tag : Byte) (p : List Byte) :
    (s.takeKind l k tag p).CursorsFollow s := by
  cases k
  case seek => exact State.takeSeek_cursorsFollow h l p
  case readRecords =>
    simp only [State.takeKind, State.takeReadRecords]
    split
    · exact .answer_self _ _ _ _
    · exact .onLink s l (fun k => LinkState.endTest_cursor _ _)
  case stream =>
    simp only [State.takeKind, State.takeStream]
    split
    · exact .answer l _ _ (.onLink s l (fun _ => rfl)) rfl
    · exact .answer l _ _ (.onLink s l (fun _ => rfl)) rfl
    · exact .answer_self _ _ _ _
  case readStatus => exact .answer l _ _ (.same rfl) rfl
  case readNotice =>
    simp only [State.takeKind, State.takeReadNotice]
    split
    · exact .answer l _ _ (.same rfl) rfl
    · exact .answer l _ _ (.thenOnLink l (fun _ => rfl) (.same rfl) rfl) rfl
  case setNoticeMask => exact .answer l _ _ (.thenOnLink l (fun _ => rfl) (.same rfl) rfl) rfl
  case mark =>
    exact .answer l _ _ (.thenOnLink l (fun k => LinkState.offer_cursor _ k) (.same rfl) rfl) rfl
  case readMark =>
    simp only [State.takeKind, State.takeReadMark]
    split
    · exact .answer_self _ _ _ _
    · exact .answer l _ _ (.onLink s l (fun _ => rfl)) rfl
  case setMarkLine =>
    simp only [State.takeKind, State.takeSetMarkLine]
    split
    · exact .answer l _ _ (.onLink s l (fun _ => rfl)) rfl
    · exact .answer l _ _ (.onLink s l (fun _ => rfl)) rfl
    · exact .answer_self _ _ _ _
  case labelNextSecond =>
    simp only [State.takeKind, State.takeLabel]
    split
    · exact .answer_self _ _ _ _
    · split
      · exact .answer l _ _ (.same rfl) rfl
      · split
        · exact .answer_self _ _ _ _
        · exact .answer l _ _ (.map rfl (fun _ => rfl)) rfl
  case setOffset =>
    have change : ∀ a t st, (s.changeAxis l a t st).CursorsFollow s := fun _ _ _ => .answer l _ _ (.same rfl) rfl
    simp only [State.takeKind, State.takeSetOffset]
    split
    · exact change _ _ _
    · split <;> exact change _ _ _
    · exact .answer_self _ _ _ _
    · exact .answer_self _ _ _ _
  case openEdit =>
    simp only [State.takeKind, State.takeOpenEdit]
    split
    · split
      · exact .answer_self _ _ _ _
      · exact .answer l _ _ (.same rfl) rfl
    · split
      · exact .answer l _ _ (.same rfl) rfl
      · exact .answer_self _ _ _ _
    · exact .answer_self _ _ _ _
  case writeKnot => exact State.editWrite_cursorsFollow _ _ _
  case writeBand => exact State.editWrite_cursorsFollow _ _ _
  case writeBias => exact State.editWrite_cursorsFollow _ _ _
  case writeHoldoverRate => exact State.editWrite_cursorsFollow _ _ _
  case commit =>
    simp only [State.takeKind, State.takeCommit]
    split
    · exact .answer_self _ _ _ _
    · split
      · exact .same (by rw [State.requestWrite_links]; rfl)
      · exact .answer_self _ _ _ _
    · exact .answer_self _ _ _ _
  case abandon =>
    simp only [State.takeKind, State.takeAbandon]
    split
    · exact .answer_self _ _ _ _
    · split
      · exact .answer l _ _ (.same rfl) rfl
      · exact .answer_self _ _ _ _
    · exact .answer_self _ _ _ _
  case lockCalibration =>
    simp only [State.takeKind, State.takeLock]
    split
    · exact .answer l _ _ (.same rfl) rfl
    · exact .answer_self _ _ _ _
    · exact .answer_self _ _ _ _
  case readTable =>
    simp only [State.takeKind, State.takeReadTable]
    split
    · exact State.answerTable_cursorsFollow _ _ _ _
    · unfold State.readShadow
      split
      · exact .answer_self _ _ _ _
      · split
        · exact (State.answerTable_cursorsFollow _ _ _ _).trans (.same rfl) rfl
        · exact .answer_self _ _ _ _
      · exact .answer_self _ _ _ _
    · exact .answer_self _ _ _ _
  case setBaseline =>
    simp only [State.takeKind, State.takeSetBaseline]
    split
    · refine .answer l _ _ ((CursorsFollow.same (State.requestWrite_links _ _)).trans
        ((State.raiseOthers_cursorsFollow _ _ _).trans (.same rfl) ?_) ?_) ?_
      · rfl
      · cases l <;> rfl
      · rw [(CommandFrame.requestWrite _ _).ring]
        cases l <;> rfl
    · exact .answer_self _ _ _ _

theorem State.begin_cursorsFollow {s : State} (h : s.ring.Sound) (l : Link) (c : Command) :
    (s.begin l c).CursorsFollow s := by
  have enter : (s.onLink l (LinkState.enter c)).CursorsFollow s := .onLink s l (fun _ => rfl)
  unfold State.begin State.execute
  split
  · exact .answer l _ _ enter rfl
  · split
    · exact (State.takeKind_cursorsFollow (s := s.onLink l (LinkState.enter c)) h _ _ _ _).trans enter rfl
    · exact .answer l _ _ enter rfl

theorem State.handOver_cursorsFollow {s : State} (h : s.ring.Sound) (l : Link) (c : Command) :
    (s.handOver l c).CursorsFollow s := by
  unfold State.handOver
  split
  · exact State.begin_cursorsFollow h l c
  · exact .onLink s l (fun k => LinkState.wait_cursor c k)

/-! ## Replies sent, store writes and deliveries -/

theorem State.endReply_cursorsFollow {s : State} (h : s.ring.Sound) (l : Link) : (s.endReply l).CursorsFollow s := by
  unfold State.endReply
  split
  · unfold State.leave
    split
    · exact .thenOnLink l (fun _ => rfl) (.onLink s l (fun _ => rfl)) rfl
    · exact (State.begin_cursorsFollow (s := (s.onLink l LinkState.lineIdle).onLink l _) h l _).trans
        (.thenOnLink l (fun _ => rfl) (.onLink s l (fun _ => rfl)) rfl) rfl
  · exact .onLink s l (fun _ => rfl)
  · exact .same rfl
  · exact .same rfl
  · exact .same rfl

theorem State.endWrite_cursorsFollow (s : State) (w : StoreWrite) (success : Bool) :
    (s.endWrite w success).CursorsFollow s := by
  have succeed : ∀ (u : State) v, (u.commitSuccess v).CursorsFollow u := by
    intro u v
    unfold State.commitSuccess
    split
    · exact .same rfl
    · exact .same rfl
    · dsimp only
      split
      · exact .map rfl (fun _ => rfl)
      · exact .thenOnLink _ (fun _ => rfl) (.map rfl (fun _ => rfl)) rfl
  have fail : ∀ u : State, u.commitFault.CursorsFollow u := by
    intro u
    unfold State.commitFault
    split
    · exact .same rfl
    · exact .same rfl
    · split
      · exact .same rfl
      · exact .thenOnLink _ (fun _ => rfl) (.same rfl) rfl
  unfold State.endWrite
  dsimp only
  refine (CursorsFollow.same (State.chooseWrite_links _)).trans ?_ ?_
  · cases w.kind <;> cases success
    · exact (fail _).trans (.same rfl) rfl
    · exact (succeed _ _).trans (.same rfl) rfl
    · exact .same rfl
    · exact .same rfl
  · have := (CommandFrame.endWrite s w success).ring
    have hc := fun u : State => (CommandFrame.chooseWrite u).ring
    unfold State.endWrite at this
    rw [hc] at this
    exact this

/-- A delivered record that is not next sequence leaves the cursor within the ring (R132). -/
theorem LinkState.deliver_bound {r : Ring} (h : r.Sound) {k : LinkState} (hk : r.distance k.cursor ≤ r.count) {n : Word}
    (hn : n ≠ r.next) : r.distance (k.deliver n).cursor ≤ r.count := by
  unfold LinkState.deliver
  split
  · next hc =>
    have hnext := h.nextFollows
    have hmost := h.atMost
    rw [hc] at hk
    unfold Ring.distance at *
    dsimp only
    bv_omega
  · exact hk

end Sys2Proof.Machine
end

section
/-! SUPPORT. The ring invariant (R125, R126, R130) along every event. -/

namespace Sys2Proof.Machine

/-! ## The append -/

/-- Under an append of a record the bound of R130 holds again: the cursors of a removed record have moved on (R131). -/
theorem State.CursorsBound.append {s : State} (h : s.ring.Sound) (hs : s.CursorsBound) (record : Record) :
    (s.appendRecord record).CursorsBound := by
  have holdest : ∀ r : Ring, (r.place record).oldest = r.oldest := fun r => by
    unfold Ring.place Ring.oldest
    cases r.records <;> rfl
  have hcount : ∀ r : Ring, (r.place record).count = r.count + 1 := fun r => by simp [Ring.place, Ring.count]
  have placed : ∀ u : State, u.CursorsBound → State.CursorsBound { u with ring := u.ring.place record } := by
    intro u hu l
    have hl := hu l
    unfold Ring.distance at *
    dsimp only
    rw [holdest, hcount]
    omega
  by_cases hroom : s.ring.count < ringCapacity
  · rw [State.appendRecord_of_room record hroom]
    exact placed s hs
  · rw [State.appendRecord_of_full record (Nat.not_lt.mp hroom)]
    refine placed _ fun l => ?_
    cases hr : s.ring.records with
    | nil => simp [Ring.count, hr] at hroom
    | cons q rest =>
      have hq : Ring.Sound ⟨q :: rest, s.ring.next⟩ := by rw [← hr]; exact h
      have hold : Ring.oldest ⟨rest, s.ring.next⟩ = q.seq + 1 := hq.dropOldest.2
      have hfirst : s.ring.oldest = q.seq := by rw [Ring.oldest, hr]
      have hl := hs l
      have hmost := hq.atMost
      rw [State.removeOldest_of_cons hr]
      simp only [Ring.distance, Ring.count, hr, List.length_cons, PerLink.get_map] at hl hmost ⊢
      rw [hfirst] at hl
      rw [show Ring.oldest { records := rest, next := s.ring.next } = q.seq + 1 from hold]
      by_cases hc : (s.links.get l).cursor = q.seq
      · rw [LinkState.passRemoved_of_eq hc]
        simp
      · rw [LinkState.passRemoved_of_ne hc]
        bv_omega

/-! ## The invariant -/

/-- The ring in order and, under assumption A, each cursor within it. -/
def State.RingKept (A : Prop) (s : State) : Prop := s.ring.Sound ∧ (A → s.CursorsBound)

/-- The same, with the premise of the cursor part (assumption log 14). -/
def State.RingKeptFresh (A : Prop) (s : State) : Prop := s.ring.Sound ∧ (A → s.FramesFresh ∧ s.CursorsBound)

section

variable {A : Prop} {u s : State}

theorem State.RingKeptFresh.kept (h : s.RingKeptFresh A) : s.RingKept A := ⟨h.1, fun ha => (h.2 ha).2⟩

/-- An event that leaves the ring alone and whose cursors follow. -/
theorem State.RingKept.follow (h : s.RingKept A) (hring : u.ring = s.ring) (hf : u.CursorsFollow s) : u.RingKept A :=
  ⟨hring ▸ h.1, fun ha => hf.bound hring (h.2 ha)⟩

theorem State.RingKeptFresh.follow (h : s.RingKeptFresh A) (hring : u.ring = s.ring) (hf : u.CursorsFollow s) :
    u.RingKept A := h.kept.follow hring hf

/-- An event that changes one link, and not its cursor. -/
theorem State.RingKeptFresh.onLink (h : s.RingKeptFresh A) (l : Link) {f : LinkState → LinkState}
    (hf : ∀ k, (f k).cursor = k.cursor) : (s.onLink l f).RingKept A := h.follow rfl (.onLink s l hf)

theorem State.RingKeptFresh.scale (h : s.RingKeptFresh A) (hf : u.ScaleFrame s) : u.RingKept A := by
  refine h.follow hf.ring fun l => .inl ?_
  obtain ⟨clock, step, hl⟩ := hf.links l
  rw [hl]

theorem State.RingKeptFresh.advance (h : s.RingKeptFresh A) (w : Nat) : (s.advance w).RingKeptFresh A := by
  refine ⟨by rw [State.advance_ring]; exact h.1, fun ha => ⟨fun l q hq => ?_, fun l => ?_⟩⟩
  · rw [State.advance_links] at hq
    rw [State.advance_ring]
    exact (h.2 ha).1 l q hq
  · rw [State.advance_links, State.advance_ring]
    exact (h.2 ha).2 l

theorem State.RingKeptFresh.strobeWork (h : s.RingKeptFresh A) (k : Nat) (codeX codeY codeZ : Int) (d : Bool) :
    (s.strobeWork k codeX codeY codeZ d).RingKept A := by
  have hstrobed : (s.strobed k codeX codeY codeZ d).RingKept A :=
    h.follow (State.strobed_ring s k codeX codeY codeZ d) fun l => .inl (by rw [State.strobed_links])
  rcases s.strobeWork_append k codeX codeY codeZ d with hw | ⟨sl, asm, -, -, -, -, hw⟩ <;> rw [hw]
  · exact hstrobed
  · exact ⟨Ring.Sound.append (s := { s.strobed k codeX codeY codeZ d with asm := asm }) hstrobed.1 _,
      fun ha => State.CursorsBound.append (s := { s.strobed k codeX codeY codeZ d with asm := asm }) hstrobed.1
        (hstrobed.2 ha) _⟩

/-- A frame delivered, whatever it is: the record it carries is not next sequence. -/
theorem State.RingKeptFresh.deliver (h : s.RingKeptFresh A) (l : Link) {f : LinkState → LinkState}
    (hf : ∀ k : LinkState, (f k).cursor = k.cursor ∨ ∃ q, k.carried = some q ∧ (f k).cursor = (k.deliver q.seq).cursor) :
    (s.onLink l f).RingKept A := by
  refine ⟨h.1, fun ha => ?_⟩
  obtain ⟨hfresh, hbound⟩ := h.2 ha
  refine State.onLink_forall (fun k => s.ring.distance k.cursor ≤ s.ring.count) s l f hbound ?_
  rcases hf (s.links.get l) with hc | ⟨q, hq, hc⟩ <;> rw [hc]
  · exact hbound l
  · exact LinkState.deliver_bound h.1 (hbound l) (hfresh l q hq)

end

theorem LinkState.endTransferFrame_cursor (next : Word) (k : LinkState) :
    (k.endTransferFrame next).cursor = k.cursor
      ∨ ∃ q, k.carried = some q ∧ (k.endTransferFrame next).cursor = (k.deliver q.seq).cursor := by
  have hdeliver : ∀ n, (k.lineIdle.deliver n).cursor = (k.deliver n).cursor := fun n => by
    unfold LinkState.deliver
    rw [LinkState.lineIdle_cursor]
    split <;> rfl
  unfold LinkState.endTransferFrame LinkState.carried
  split
  · next q _ htx => exact .inr ⟨q, by rw [htx], by rw [LinkState.endTest_cursor]; exact hdeliver _⟩
  · next q _ htx => exact .inr ⟨q, by rw [htx], hdeliver _⟩
  · exact .inl rfl
  · exact .inl rfl
  · exact .inl rfl

theorem LinkState.endStreamFrame_cursor (k : LinkState) :
    k.endStreamFrame.cursor = k.cursor
      ∨ ∃ q, k.carried = some q ∧ k.endStreamFrame.cursor = (k.deliver q.seq).cursor := by
  unfold LinkState.endStreamFrame LinkState.carried LinkState.deliver
  split
  · next q _ htx =>
    refine .inr ⟨q, by rw [htx], ?_⟩
    rw [LinkState.lineIdle_cursor]
    split <;> rfl
  · exact .inl rfl
  · exact .inl rfl
  · exact .inl rfl

/-- Every event keeps the ring in order, and each cursor within it. -/
theorem State.ringKept_ledByEvents (A : Prop) : LedByEvents (State.RingKeptFresh A) (State.RingKept A) where
  stay _ h := h.kept
  time _ w h _ := h.advance w
  powerOn s _ := by
    refine ⟨⟨Nat.zero_le _, rfl, rfl⟩, fun _ l => ?_⟩
    have hzero : Ring.distance Ring.empty 0 ≤ Ring.count Ring.empty := by decide
    cases l <;> exact hzero
  warm s h _ _ := h.follow rfl (.map (f := fun k => LinkState.atReset k.ready k.cursor) rfl (fun _ => rfl))
  resetRequest s h _ := h.follow rfl (.same rfl)
  boundary s sn h _ _ := h.scale (.boundary s false sn)
  strobe s k codeX codeY codeZ d h _ _ _ := h.strobeWork k codeX codeY codeZ d
  midpoint s h _ _ _ := h.scale (.closeWindow s)
  pps s h _ := h.scale (.ppsRecognised s)
  conversion s ch r h _ _ := by
    unfold State.takeConversion
    dsimp only
    split <;> cases ch
    · exact h.follow rfl (.same rfl)
    · exact h.follow rfl (.same rfl)
    · exact h.follow rfl (.map rfl (fun _ => rfl))
    · exact h.follow rfl (.map rfl (fun _ => rfl))
  lineMark s h _ := by
    refine h.follow rfl (.map rfl (fun k => ?_))
    unfold LinkState.offerLine
    split
    · exact LinkState.offer_cursor _ k
    · rfl
  expire s l _ h _ _ := h.follow rfl (.thenOnLink l (fun _ => rfl) (.same rfl) rfl)
  endWrite s w success h _ _ := h.follow (CommandFrame.endWrite s w success).ring (s.endWrite_cursorsFollow w success)
  ready s l _ h _ := h.onLink l (fun _ => rfl)
  framingError s l h _ _ := h.onLink l (fun _ => rfl)
  timeOut s l h _ := h.onLink l (fun _ => rfl)
  dropBad s l h _ := h.onLink l (fun _ => rfl)
  takeByte s l _ _ h _ _ := h.onLink l (fun _ => rfl)
  holdByte s l h _ _ := h.onLink l (fun _ => rfl)
  acceptFrame s l b c h _ _ := h.follow (CommandFrame.acceptFrame s l c).ring
    ((State.handOver_cursorsFollow (s := s.onLink l _) h.1 l c).trans (.onLink s l (fun _ => rfl)) rfl)
  handOver s l c h _ := h.follow (CommandFrame.handOver s l c).ring (State.handOver_cursorsFollow h.1 l c)
  startBreak s l h _ := h.follow rfl (.thenOnLink l (fun _ => rfl) (.same rfl) rfl)
  endBreak s l h _ _ := h.onLink l (fun _ => rfl)
  beginReply s l h _ _ := by
    refine h.onLink l (fun k => ?_)
    unfold LinkState.beginReply
    split
    · rfl
    · split <;> rfl
  endReply s l h _ := h.follow (CommandFrame.endReply s l).ring (State.endReply_cursorsFollow h.1 l)
  beginTransfer s l h _ _ := by
    unfold State.beginTransferFrame
    dsimp only
    split
    · exact h.kept
    · exact h.onLink l (fun _ => rfl)
  endTransfer s l h _ := h.deliver l (LinkState.endTransferFrame_cursor _)
  beginStream s l h _ _ := by
    unfold State.beginStreamFrame
    dsimp only
    split
    · exact h.kept
    · exact h.onLink l (fun _ => rfl)
  endStream s l h _ := h.deliver l LinkState.endStreamFrame_cursor
  powerLoss s _ h _ := h.follow rfl (.same rfl)

end Sys2Proof.Machine

namespace Sys2Proof.Proofs

open Sys2Proof.Machine

/-- Settles O55: the invariant of `State.ringKept_ledByEvents`, with both premises of the cursor part as its assumption. -/
theorem everyStepKeepsTheRingAndItsCursors : Obligations.EveryStepKeepsTheRingAndItsCursors := by
  intro s t hring hstep
  obtain ⟨hkept, hcursors⟩ := (State.ringKept_ledByEvents (s.FramesFresh ∧ s.CursorsBound)).step
    (fun _ _ h => h) ⟨hring, id⟩ hstep
  exact ⟨hkept, fun hfresh hbound => hcursors ⟨hfresh, hbound⟩⟩

end Sys2Proof.Proofs
end

section
/-! SUPPORT. Epoch Timer and Discipline Controller (Tables 1-1, 2-1, 2-3; R20, R33, R38) along every event. -/

namespace Sys2Proof.Machine

/-! ## The two blocks at a boundary -/

/-- The length a boundary forms lies within 9,999,470..10,000,530, and the accumulator keeps the remainder (R3). -/
theorem State.boundary_epoch_sound {a : State} (hepoch : a.epoch.Sound) (hdisc : a.disc.Sound)
    (hcal : a.cal.active.inRange = true) (isStep : Bool) (sn : Word) : (a.boundary isStep sn).epoch.Sound := by
  rw [(a.boundary_outcome isStep sn).epoch]
  obtain ⟨htemp0, htemp⟩ := CalSet.yTemp_range hcal a.thermTO
  generalize (a.cal.active.table.osc.lookup a.thermTO).o = yTemp at *
  have hy0 : -3000000 ≤ a.disc.yDisc + yTemp := Int.add_le_add hdisc.yDiscLow htemp0
  have hy : a.disc.yDisc + yTemp ≤ 3000000 := Int.add_le_add hdisc.yDiscHigh htemp
  obtain ⟨hq0, hq⟩ := hepoch.quotient_range hy0 hy
  obtain ⟨hadj0, hadj⟩ := hepoch.adjustment_range
  have hadded : -500 ≤ (if isStep then 0 else a.epoch.pendingAdj.getD 0)
      ∧ (if isStep then 0 else a.epoch.pendingAdj.getD 0) ≤ 500 := by
    split
    · decide
    · exact ⟨hadj0, hadj⟩
  generalize (if isStep then 0 else a.epoch.pendingAdj.getD 0) = added at *
  exact
    { accLow := Int.emod_nonneg _ (by decide)
      accHigh := by dsimp only; omega
      lenLow := by dsimp only; omega
      lenHigh := by dsimp only; omega
      position := Nat.zero_le _
      adjustment := by simp
      yTempLow := htemp0
      yTempHigh := htemp
      conflictNoLabel := by simp
      epochOut := rfl }

/-- U grows in HOLDOVER alone, and no further than its cap (R31). -/
theorem Discipline.Sound.grow {d : Discipline} (h : d.Sound) (rate : Nat) :
    Discipline.Sound { d with
      windowArrived := true
      u := if d.clock = .holdover then min 1000000000 (d.u + rate) else d.u } := by
  have hlow := h.uLow
  have hhigh := h.uHigh
  exact
    { h with
      uLow := by dsimp only; split <;> omega
      uHigh := by dsimp only; split <;> omega
      freeU := fun hc => by dsimp only at hc ⊢; rw [hc, if_neg (by decide), h.freeU hc]
      acquireU := fun hc => by dsimp only at hc ⊢; rw [hc, if_neg (by decide), h.acquireU hc] }

/-- The new interval's midpoint mark is still to come, and its window's boundary has arrived (R20). -/
theorem State.boundary_clockSound {a : State} (hepoch : a.epoch.Sound) (hdisc : a.disc.Sound)
    (hcal : a.cal.active.inRange = true) (isStep : Bool) (sn : Word) : (a.boundary isStep sn).ClockSound := by
  have hout := a.boundary_outcome isStep sn
  have hnew := State.boundary_epoch_sound hepoch hdisc hcal isStep sn
  refine ⟨hnew, by rw [hout.disc]; exact hdisc.grow _, ?_⟩
  have hlen := hnew.lenLow
  have htick : (a.boundary isStep sn).epoch.tickPos = 0 := by rw [hout.epoch]
  rw [show (a.boundary isStep sn).disc.windowArrived = true by rw [hout.disc], eq_comm, EpochTimer.ahead_iff, htick]
  unfold EpochTimer.midpoint
  omega

/-! ## The Discipline Controller's changes -/

section

variable {d : Discipline} (h : d.Sound)

include h

/-- Another clock state with both runs cleared, under what each state asks of U, training and the good edges. -/
theorem Discipline.Sound.inState {c : ClockState} {u good : Nat} {trained : Bool} (hu : 100 ≤ u ∧ u ≤ 1000000000)
    (hgood : good ≤ 16) (hfree : c = .free → u = 1000000000 ∧ trained = false)
    (hacquire : c = .acquire → u = 100000 ∧ good ≤ 15) (hholdover : c = .holdover → trained = true)
    (htrack : c = .track → trained = true) :
    Discipline.Sound { d with clock := c, good := good, outlierRun := 0, missingRun := 0, trained := trained, u := u } :=
  { h with
    uLow := hu.1
    uHigh := hu.2
    freeU := fun hc => (hfree hc).1
    acquireU := fun hc => (hacquire hc).1
    trainedClock := fun ht hc => by simp [(hfree hc).2] at ht
    holdoverTrained := hholdover
    trackTrained := htrack
    goodBound := hgood
    acquireGood := fun hc => (hacquire hc).2
    outlierBound := Nat.zero_le _
    missingBound := Nat.zero_le _
    missingZero := fun _ => rfl }

theorem Discipline.Sound.enterAcquire : (d.enter .acquire).Sound :=
  h.inState (c := .acquire) (u := 100000) (good := 0) (by decide) (by decide) nofun (fun _ => by decide)
    nofun nofun

/-- HOLDOVER is entered after training alone (R33). -/
theorem Discipline.Sound.enterHoldover (htrained : d.trained = true) : (d.enter .holdover).Sound :=
  h.inState (c := .holdover) ⟨h.uLow, h.uHigh⟩ h.goodBound nofun nofun (fun _ => htrained) nofun

theorem Discipline.Sound.enterTrack : (d.enter .track).Sound :=
  h.inState (c := .track) (trained := true) ⟨h.uLow, h.uHigh⟩ h.goodBound nofun nofun nofun (fun _ => rfl)

/-- The frequency is clamped to ±2,000,000 (R34). -/
theorem Discipline.Sound.addFrequency (inc : Int) : (d.addFrequency inc).Sound := by
  rw [Discipline.addFrequency_eq]
  exact { h with yDiscLow := by dsimp only; omega, yDiscHigh := by dsimp only; omega }

/-- The edge of a window is measured, at a phase within half an interval (R21, R22). -/
theorem Discipline.Sound.measured {p : Int} (hp : -5000265 ≤ p ∧ p ≤ 5000265) :
    Discipline.Sound { d with windowMeasured := true, lastPhase := some p } :=
  { h with phaseBound := fun q hq => by cases hq; exact hp }

/-- U of an accepted phase, with both runs cleared: in TRACK (R28). -/
theorem Discipline.Sound.tracked (hclock : d.clock = .track) {p : Int} (hp : p.natAbs ≤ 1000) :
    Discipline.Sound { d with u := max 100 (100 * p.natAbs), outlierRun := 0, missingRun := 0 } :=
  { h with
    uLow := by dsimp only; omega
    uHigh := by dsimp only; omega
    freeU := fun hc => by simp [hclock] at hc
    acquireU := fun hc => by simp [hclock] at hc
    outlierBound := Nat.zero_le _
    missingBound := Nat.zero_le _
    missingZero := fun _ => rfl }

/-- A good edge of ACQUIRE before its sixteenth, or none at all, ends the run of missing windows (R26, R27). -/
theorem Discipline.Sound.countGood {n : Nat} (hn : n ≤ 15) :
    Discipline.Sound { d with good := n, missingRun := 0 } :=
  { h with
    goodBound := by dsimp only; omega
    acquireGood := fun _ => hn
    missingBound := Nat.zero_le _
    missingZero := fun _ => rfl }

/-- A missing window that is not the third in a run, where missing windows count (R27, R30). -/
theorem Discipline.Sound.countMissing (hclock : d.clock = .acquire ∨ d.clock = .track) {n : Nat} (hn : n ≤ 2) :
    Discipline.Sound { d with missingRun := n } :=
  { h with
    missingBound := hn
    missingZero := fun hc => by rcases hclock with he | he <;> simp [he] at hc }

/-- The good edges of ACQUIRE begin again (R27). -/
theorem Discipline.Sound.clearGood : Discipline.Sound { d with good := 0 } :=
  { h with goodBound := Nat.zero_le _, acquireGood := fun _ => Nat.zero_le _ }

/-- An outlier that is not the fourth in a run (R29). -/
theorem Discipline.Sound.countOutlier {n m : Nat} (hn : n ≤ 3) (hm : m ≤ 65535) :
    Discipline.Sound { d with outlierRun := n, outliers := m } :=
  { h with outlierBound := hn, outliersBound := hm }

/-- A window closes and the next opens (R20). -/
theorem Discipline.Sound.openWindow : Discipline.Sound { d with windowArrived := false, windowMeasured := false } := { h with }

end

theorem bump_le (limit n : Nat) : bump limit n ≤ limit := Nat.min_le_left _ _

/-! ## A missing window and the midpoint mark -/

theorem State.missingWindow_epoch (s : State) : s.missingWindow.epoch = s.epoch := by
  unfold State.missingWindow
  split
  · rfl
  · dsimp only; split <;> rfl
  · dsimp only; split <;> rfl
  · rfl

theorem State.missingWindow_disc_sound {s : State} (h : s.disc.Sound) : s.missingWindow.disc.Sound := by
  have hmissing := h.missingBound
  unfold State.missingWindow
  split
  · exact h
  · next hclock =>
    dsimp only
    split
    · cases htrained : s.disc.trained with
      | true => exact h.inState (c := .holdover) (good := 0) ⟨h.uLow, h.uHigh⟩ (by decide) nofun nofun (fun _ => rfl) nofun
      | false => exact h.inState (c := .free) (good := 0) (by decide) (by decide) (fun _ => ⟨rfl, rfl⟩) nofun nofun nofun
    · next hless =>
      exact h.clearGood.countMissing (.inl hclock) (by dsimp only [missingToLeave] at hless ⊢; omega)
  · next hclock =>
    dsimp only
    split
    · exact h.enterHoldover (h.trackTrained hclock)
    · next hless => exact h.countMissing (.inr hclock) (by dsimp only [missingToLeave] at hless ⊢; omega)
  · exact h

/-- At the midpoint mark the window's boundary is that of the next interval (R20). -/
theorem State.closeWindow_clockSound {s : State} (h : s.ClockSound) (htick : s.epoch.tickPos = s.epoch.midpoint) :
    s.markIssued.closeWindow.ClockSound := by
  have hepoch : s.markIssued.closeWindow.epoch = { s.epoch with issued := true } := by
    unfold State.closeWindow
    dsimp only
    split
    · rfl
    · exact State.missingWindow_epoch _
  refine ⟨by rw [hepoch]; exact { h.epoch with }, ?disc, ?window⟩
  case disc =>
    unfold State.closeWindow
    dsimp only
    split
    · exact h.disc.openWindow
    · exact (State.missingWindow_disc_sound (s := s.markIssued) h.disc).openWindow
  case window =>
    rw [hepoch]
    refine Eq.symm (Bool.eq_false_iff.mpr fun hahead => ?_)
    rw [EpochTimer.ahead_iff] at hahead
    have hmid : EpochTimer.midpoint { s.epoch with issued := true } = s.epoch.midpoint := rfl
    rcases hahead with hbefore | ⟨-, hissued⟩
    · rw [hmid] at hbefore
      exact absurd htick (Nat.ne_of_lt hbefore)
    · cases hissued

/-! ## A PPS edge -/

/-- The phase of an edge lies within half of the longest interval (R21). -/
theorem State.ClockSound.phaseNow_range {s : State} (h : s.ClockSound) :
    -5000265 ≤ s.phaseNow ∧ s.phaseNow ≤ 5000265 := by
  have hwindow := h.window
  have hlen := h.epoch.lenHigh
  have hpos := h.epoch.position
  unfold State.phaseNow
  split
  · next harrived =>
    rw [harrived, eq_comm, EpochTimer.ahead_iff] at hwindow
    unfold EpochTimer.midpoint at hwindow
    omega
  · next harrived =>
    have hahead : ¬ s.epoch.ahead s.epoch.midpoint = true := by rw [← hwindow]; exact harrived
    rw [EpochTimer.ahead_iff] at hahead
    unfold EpochTimer.midpoint at hahead
    omega

/-- Another Discipline Controller, with a pending adjustment within ±500. -/
theorem State.ClockSound.adjust {u s : State} (h : s.ClockSound) {v : Int} (hv : -500 ≤ v ∧ v ≤ 500)
    (hepoch : u.epoch = { s.epoch with pendingAdj := some v }) (hdisc : u.disc.Sound)
    (hwindow : u.disc.windowArrived = s.disc.windowArrived) : u.ClockSound :=
  ⟨hepoch ▸ { h.epoch with adjustment := fun w hw => by cases hw; exact hv }, hdisc, by
    rw [hwindow, hepoch]
    exact h.window⟩

theorem State.acquireUpdate_clockSound {s : State} (h : s.ClockSound) (hclock : s.disc.clock = .acquire) {p : Int}
    (hp : p.natAbs ≤ 50) : (s.acquireUpdate p).ClockSound := by
  have hgood := h.disc.acquireGood hclock
  have hv : -500 ≤ p ∧ p ≤ 500 := by omega
  have hadded := h.disc.addFrequency (p * 100000)
  rcases Nat.lt_or_ge s.disc.good 15 with hless | hmore
  · rw [State.acquireUpdate_of_good_lt p hless]
    exact h.adjust hv rfl (hadded.countGood (by omega)) rfl
  · rw [State.acquireUpdate_of_le_good p hmore]
    have hsound := hadded.inState (c := .track) (u := max 100 (100 * p.natAbs)) (good := s.disc.good + 1)
      (trained := true) (by omega) (by omega) nofun nofun nofun (fun _ => rfl)
    exact h.adjust hv rfl hsound rfl

theorem State.trackUpdate_clockSound {s : State} (h : s.ClockSound) (hclock : s.disc.clock = .track) {p : Int}
    (hp : p.natAbs ≤ 1000) : (s.trackUpdate p).ClockSound := by
  rw [State.trackUpdate_eq]
  have hv : -500 ≤ roundDiv p 2 ∧ roundDiv p 2 ≤ 500 := by
    unfold roundDiv
    split <;> omega
  exact h.adjust hv rfl ((h.disc.addFrequency _).tracked hclock hp) rfl

/-- A step boundary that another Discipline Controller leads to. -/
theorem State.ClockSound.step {s : State} (h : s.ClockSound) (hcal : s.cal.active.inRange = true) {d : Discipline}
    (hd : d.Sound) (p : Int) : (State.phaseStep { s with disc := d } p).ClockSound :=
  State.boundary_clockSound (a := { s with disc := d }) h.epoch hd hcal _ _

/-- ... and the same after entry to ACQUIRE. -/
theorem State.ClockSound.enterAcquire_step {s : State} (h : s.ClockSound) (hcal : s.cal.active.inRange = true)
    {d : Discipline} (hd : (d.enter .acquire).Sound) (p : Int) :
    ((State.enterClock { s with disc := d } .acquire).phaseStep p).ClockSound :=
  State.boundary_clockSound (a := State.enterClock { s with disc := d } .acquire) h.epoch hd hcal _ _

theorem State.outlierEdge_clockSound {s : State} (h : s.ClockSound) (hcal : s.cal.active.inRange = true) (p : Int) :
    (s.outlierEdge p).ClockSound := by
  have houtliers : bump max16 s.disc.outliers ≤ 65535 := bump_le _ _
  unfold State.outlierEdge
  dsimp only
  split
  · exact h.enterAcquire_step hcal (h.disc.countOutlier (n := 0) (by decide) houtliers).enterAcquire p
  · next hless =>
    exact ⟨h.epoch, h.disc.countOutlier (by dsimp only [outliersToStep] at hless ⊢; omega) houtliers, h.window⟩

/-- A measured edge, by the rule of the clock state (R25 to R29, R32). -/
theorem State.evaluateEdge_clockSound {s : State} (h : s.ClockSound) (hcal : s.cal.active.inRange = true) (p : Int) :
    (s.evaluateEdge p).ClockSound := by
  unfold State.evaluateEdge
  split
  · exact h.enterAcquire_step hcal h.disc.enterAcquire p
  · next hclock =>
    split
    · next hp => exact State.acquireUpdate_clockSound h hclock hp
    · exact h.step hcal (h.disc.countGood (by decide)) p
  · next hclock =>
    split
    · next hp => exact State.trackUpdate_clockSound h hclock hp
    · exact State.outlierEdge_clockSound h hcal p
  · split
    · next hp => exact State.trackUpdate_clockSound (s := s.enterClock .track) ⟨h.epoch, h.disc.enterTrack, h.window⟩ rfl hp
    · exact h.enterAcquire_step hcal h.disc.enterAcquire p

theorem State.ppsRecognised_clockSound {s : State} (h : s.ClockSound) (hcal : s.cal.active.inRange = true) :
    s.ppsRecognised.ClockSound := by
  unfold State.ppsRecognised
  dsimp only
  split
  · exact ⟨h.epoch, { h.disc with spuriousBound := bump_le _ _ }, h.window⟩
  · have hmeasured := h.disc.measured h.phaseNow_range
    exact State.evaluateEdge_clockSound (s := { s with
      samples := { s.samples with pps := 0 }
      disc := { s.disc with windowMeasured := true, lastPhase := some s.phaseNow } }) ⟨h.epoch, hmeasured, h.window⟩ hcal _

/-! ## Time -/

/-- Time that passes nothing due passes no boundary and no midpoint mark (R1, R6). -/
theorem State.ClockSound.advance {s : State} (h : s.ClockSound) {w : Nat} (hw : s.mayWait w) :
    (s.advance w).ClockSound := by
  rcases Nat.eq_zero_or_pos w with rfl | hpos
  · rw [State.advance_zero]; exact h
  have hlen : w ≤ s.epoch.len - s.epoch.tickPos := hw.le_due (by simp [State.dues])
  have hepoch : (s.advance w).epoch = s.epoch.elapse w := by rw [State.advance_epoch, if_neg (by omega)]
  have hposition := h.epoch.position
  have hout := h.epoch.epochOut
  refine ⟨?epoch, by rw [State.advance_disc]; exact h.disc, ?window⟩
  case epoch =>
    rw [hepoch]
    exact
      { h.epoch with
        position := by simp only [EpochTimer.elapse]; omega
        epochOut := by simp only [EpochTimer.elapse]; omega }
  case window =>
    have hmid : (s.epoch.elapse w).midpoint = s.epoch.midpoint := rfl
    rw [State.advance_disc, hepoch, hmid, h.window, Bool.eq_iff_iff, EpochTimer.ahead_iff]
    constructor
    · intro hahead
      have hdue : w ≤ s.epoch.midpoint - s.epoch.tickPos :=
        hw.le_due (by simp [State.dues, (EpochTimer.ahead_iff _ _).mpr hahead])
      rw [EpochTimer.ahead_iff]
      simp only [EpochTimer.elapse, and_true]
      omega
    · rw [EpochTimer.ahead_iff]
      simp only [EpochTimer.elapse, and_true]
      omega

/-! ## The invariant -/

theorem EpochTimer.atReset_sound : EpochTimer.atReset.Sound := by
  constructor <;> decide

theorem Discipline.atReset_sound : Discipline.atReset.Sound := by
  constructor <;> decide

/-- Both blocks hold what a reset gives them (Tables 1-7, 2-4). -/
theorem State.ClockSound.atReset {s : State} (hepoch : s.epoch = EpochTimer.atReset) (hdisc : s.disc = Discipline.atReset) :
    s.ClockSound :=
  ⟨hepoch ▸ EpochTimer.atReset_sound, hdisc ▸ Discipline.atReset_sound, by rw [hepoch, hdisc]; decide⟩

/-- The clock invariant with what it needs of the calibration. -/
def State.ClockKept (s : State) : Prop := s.ClockSound ∧ (s.powered = true → s.cal.active.inRange = true)

section

variable {u s : State}

/-- An event that leaves both blocks alone. -/
theorem State.ClockKept.same (h : s.ClockKept) (hepoch : u.epoch = s.epoch) (hdisc : u.disc = s.disc) : u.ClockSound :=
  ⟨hepoch ▸ h.1.epoch, hdisc ▸ h.1.disc, by rw [hepoch, hdisc]; exact h.1.window⟩

/-- A station command, which touches the label alone (R13, R14). -/
theorem State.ClockKept.label (h : s.ClockKept) (hepoch : u.LabelOnly s) (hdisc : u.disc = s.disc) : u.ClockSound := by
  rcases hepoch with he | ⟨hconflict, v, he⟩ | he
  · exact h.same he hdisc
  · refine ⟨?_, hdisc ▸ h.1.disc, by rw [he, hdisc]; exact h.1.window⟩
    rw [he]
    exact { h.1.epoch with conflictNoLabel := fun hc => by simp [hconflict] at hc }
  · refine ⟨?_, hdisc ▸ h.1.disc, by rw [he, hdisc]; exact h.1.window⟩
    rw [he]
    exact { h.1.epoch with conflictNoLabel := fun _ => rfl }

/-- The instant of a strobe is never that of the midpoint mark. -/
theorem State.ClockKept.strobe (h : s.ClockKept) {k : Nat} (htick : s.epoch.tickPos = strobePos k)
    (hepoch : u.epoch = { s.epoch with issued := true }) (hdisc : u.disc = s.disc) : u.ClockSound := by
  refine ⟨by rw [hepoch]; exact { h.1.epoch with }, hdisc ▸ h.1.disc, ?_⟩
  have hmid : EpochTimer.midpoint { s.epoch with issued := true } = s.epoch.midpoint := rfl
  have hlow := h.1.epoch.lenLow
  have hhigh := h.1.epoch.lenHigh
  rw [hepoch, hdisc, h.1.window, hmid, Bool.eq_iff_iff, EpochTimer.ahead_iff, EpochTimer.ahead_iff]
  unfold strobePos at htick
  unfold EpochTimer.midpoint
  dsimp only
  omega

end

theorem State.endReply_labelOnly (s : State) (l : Link) : (s.endReply l).LabelOnly s := by
  unfold State.endReply
  split
  · unfold State.leave
    split
    · exact .inl rfl
    · exact State.begin_labelOnly ((s.onLink l LinkState.lineIdle).onLink l _) l _
  · exact .inl rfl
  · exact .inl rfl
  · exact .inl rfl
  · exact .inl rfl

@[simp] theorem State.openSlotIfDue_epoch (s : State) (k : Nat) : (s.openSlotIfDue k).epoch = s.epoch := by
  unfold State.openSlotIfDue
  split <;> rfl

@[simp] theorem State.openSlotIfDue_disc (s : State) (k : Nat) : (s.openSlotIfDue k).disc = s.disc := by
  unfold State.openSlotIfDue
  split <;> rfl

/-- A strobe leaves of the time scale all but its own issue alone. -/
theorem State.strobeWork_scale (s : State) (k : Nat) (codeX codeY codeZ : Int) (d : Bool) :
    (s.strobeWork k codeX codeY codeZ d).epoch = { s.epoch with issued := true }
      ∧ (s.strobeWork k codeX codeY codeZ d).disc = s.disc := by
  rw [State.strobeWork_eq]
  obtain ⟨hsame, hepoch, -, -⟩ := State.completeIfDue_keeps (s.strobed k codeX codeY codeZ d) k
  rw [hepoch, hsame.disc]
  exact ⟨State.openSlotIfDue_epoch s.markIssued.keepReplaced k, State.openSlotIfDue_disc s.markIssued.keepReplaced k⟩

theorem State.takeConversion_scale (s : State) (ch : Channel) (r : ConvResult) :
    (s.takeConversion ch r).epoch = s.epoch ∧ (s.takeConversion ch r).disc = s.disc := by
  unfold State.takeConversion
  dsimp only
  split <;> cases ch <;> exact ⟨rfl, rfl⟩

/-- Every event keeps Epoch Timer and Discipline Controller within their tables. -/
theorem State.clockKept_ledByEvents : LedByEvents State.ClockKept State.ClockSound where
  stay _ h := h.1
  time s w h hw := ⟨h.1.advance hw, fun hp => by rw [State.advance_cal_active]; exact h.2 (by simpa using hp)⟩
  powerOn _ _ := .atReset rfl rfl
  warm _ _ _ _ := .atReset rfl rfl
  resetRequest _ h _ := h.same rfl rfl
  boundary _ sn h hp _ := State.boundary_clockSound h.1.epoch h.1.disc (h.2 hp) false sn
  strobe s k codeX codeY codeZ d h _ _ htick :=
    h.strobe htick (s.strobeWork_scale k codeX codeY codeZ d).1 (s.strobeWork_scale k codeX codeY codeZ d).2
  midpoint _ h _ _ htick := State.closeWindow_clockSound h.1 htick
  pps _ h hp := State.ppsRecognised_clockSound h.1 (h.2 hp)
  conversion s ch r h _ _ := h.same (s.takeConversion_scale ch r).1 (s.takeConversion_scale ch r).2
  lineMark _ h _ := h.same rfl rfl
  expire _ _ _ h _ _ := h.same rfl rfl
  endWrite s w success h _ _ := h.same (s.endWrite_epoch w success) (CommandFrame.endWrite s w success).disc
  ready _ _ _ h _ := h.same rfl rfl
  framingError _ _ h _ _ := h.same rfl rfl
  timeOut _ _ h _ := h.same rfl rfl
  dropBad _ _ h _ := h.same rfl rfl
  takeByte _ _ _ _ h _ _ := h.same rfl rfl
  holdByte _ _ h _ _ := h.same rfl rfl
  acceptFrame s l _ c h _ _ := h.label (State.handOver_labelOnly (s.onLink l _) l c) (CommandFrame.acceptFrame s l c).disc
  handOver s l c h _ := h.label (s.handOver_labelOnly l c) (CommandFrame.handOver s l c).disc
  startBreak _ _ h _ := h.same rfl rfl
  endBreak _ _ h _ _ := h.same rfl rfl
  beginReply _ _ h _ _ := h.same rfl rfl
  endReply s l h _ := h.label (s.endReply_labelOnly l) (CommandFrame.endReply s l).disc
  beginTransfer s l h _ _ := by
    unfold State.beginTransferFrame
    dsimp only
    split <;> exact h.same rfl rfl
  endTransfer _ _ h _ := h.same rfl rfl
  beginStream s l h _ _ := by
    unfold State.beginStreamFrame
    dsimp only
    split <;> exact h.same rfl rfl
  endStream _ _ h _ := h.same rfl rfl
  powerLoss _ _ h _ := h.same rfl rfl

end Sys2Proof.Machine

namespace Sys2Proof.Proofs

open Sys2Proof.Machine

/-- Settles O58, by `State.clockKept_ledByEvents`; of the calibration it uses that the active one is in range. -/
theorem everyStepKeepsTheClockSound : Obligations.EveryStepKeepsTheClockSound :=
  fun _ _ hclock hcal hstep => State.clockKept_ledByEvents.step (fun _ _ h => ⟨⟨h.1.epoch, h.1.disc, h.1.window⟩, h.2⟩)
    ⟨hclock, fun hp => (hcal hp).activeInRange⟩ hstep

end Sys2Proof.Proofs
end

section
/-! SUPPORT. Axis channels, thermometers and the open slot (Tables 3-1, 3-2, 4-1, 4-2, 5-1; R82 to R85, R99) along every
event. -/

namespace Sys2Proof.Machine

/-! ## What the field invariant speaks of -/

/-- Channels, thermometers, slot, readings in reach and the next strobe are the same in both states. -/
structure State.FieldFrame (u s : State) : Prop where
  axes : u.axes = s.axes
  thermTS : u.thermTS = s.thermTS
  thermTO : u.thermTO = s.thermTO
  slot : u.asm.slot = s.asm.slot
  replaced : u.replaced = s.replaced
  earlier : u.earlier = s.earlier
  nextStrobe : u.epoch.nextStrobe = s.epoch.nextStrobe

theorem State.FieldFrame.refl (s : State) : s.FieldFrame s := ⟨rfl, rfl, rfl, rfl, rfl, rfl, rfl⟩

theorem State.FieldFrame.trans {a b c : State} (h : a.FieldFrame b) (g : b.FieldFrame c) : a.FieldFrame c :=
  ⟨h.axes.trans g.axes, h.thermTS.trans g.thermTS, h.thermTO.trans g.thermTO, h.slot.trans g.slot,
    h.replaced.trans g.replaced, h.earlier.trans g.earlier, h.nextStrobe.trans g.nextStrobe⟩

/-- The list of an axis depends on the slot and the next strobe alone. -/
theorem State.listSound_congr {u s : State} {a : Axis} (hslot : u.asm.slot = s.asm.slot)
    (hnext : u.epoch.nextStrobe = s.epoch.nextStrobe) (h : s.listSound a) : u.listSound a := by
  unfold State.listSound at *
  rwa [hslot, hnext]

theorem State.FieldSound.frame {u s : State} (h : s.FieldSound) (hf : u.FieldFrame s) : u.FieldSound where
  axes := hf.axes ▸ h.axes
  thermTS := hf.thermTS ▸ h.thermTS
  thermTO := hf.thermTO ▸ h.thermTO
  lists a := State.listSound_congr hf.slot hf.nextStrobe (h.lists a)
  replaced := hf.replaced ▸ h.replaced
  earlier := hf.earlier ▸ h.earlier
  slotLabel := hf.slot ▸ h.slotLabel

/-- With another set of readings in reach of a mark. -/
theorem State.FieldSound.setReplaced {s : State} (h : s.FieldSound) {r : Option Replaced}
    (hr : ∀ old, r = some old → ∀ a q, old.readings.get a = some q → q.Sound) :
    State.FieldSound { s with replaced := r } :=
  { h with
    lists := fun a => State.listSound_congr rfl rfl (h.lists a)
    replaced := hr }

/-! ## Thermometers -/

theorem Thermometer.Sound.order {t : Thermometer} (h : t.Sound) : t.order.Sound :=
  { h with conversion := fun n hn => by cases hn; exact Nat.le_refl _ }

theorem Thermometer.Sound.elapse {t : Thermometer} (h : t.Sound) (n : Nat) : (t.elapse n).Sound :=
  { h with
    conversion := fun m hm => by
      obtain ⟨d, hd, rfl⟩ := Option.map_eq_some_iff.mp hm
      exact Nat.le_trans (Nat.sub_le d n) (h.conversion d hd) }

/-- A conversion's end leads from Table 4-2 to Table 4-2 (R62 to R64). -/
theorem Thermometer.Sound.take {t : Thermometer} (h : t.Sound) (r : ConvResult) : (t.take r).Sound := by
  cases hr : validReading r with
  | some v =>
    rw [Thermometer.take_of_valid t hr]
    have hv : -6000 ≤ v ∧ v ≤ 6000 := by
      cases r with
      | noConversion => cases hr
      | value w =>
        obtain ⟨hw, hwv⟩ := Option.ite_none_right_eq_some.mp hr
        cases hwv
        exact hw
    exact ⟨fun w hw => by cases hw; exact hv, by simp, fun _ => rfl, by simp, by simp, Nat.zero_le _, by simp⟩
  | none =>
    rw [Thermometer.take_of_fault t hr]
    cases hheld : t.held with
    | none =>
      exact ⟨by simp, by simp [healthAfterFault], by simp [healthAfterFault], by simp [healthAfterFault],
        by simp [healthAfterFault], Nat.min_le_left _ _, by simp⟩
    | some v =>
      have hrange := h.heldRange v hheld
      rcases Nat.lt_or_ge 300 (min 65535 (t.faults + 1)) with hmany | hfew
      · rw [healthAfterFault_of_many (by simp) hmany]
        exact ⟨fun w hw => by cases hw; exact hrange, by simp, by simp, by simp, fun _ => hmany, Nat.min_le_left _ _,
          by simp⟩
      · rw [healthAfterFault_of_few (by simp) hfew]
        exact ⟨fun w hw => by cases hw; exact hrange, by simp, by simp, fun _ => ⟨by dsimp only; omega, hfew⟩, by simp,
          Nat.min_le_left _ _, by simp⟩

theorem Thermometer.atReset_sound : Thermometer.atReset.Sound :=
  ⟨nofun, ⟨fun _ => rfl, fun _ => rfl⟩, nofun, nofun, nofun, by decide, fun _ hn => by cases hn; exact Nat.le_refl _⟩

/-! ## Channels -/

theorem AxisChannel.atReset_sound : AxisChannel.atReset.Sound := ⟨by decide, by decide, by decide, nofun⟩

/-- A reading lies within Table 3-2 when its channel lies within Table 3-1 (R42, R44). -/
theorem AxisChannel.Sound.reading {c : AxisChannel} (h : c.Sound) (a : Axis) (sn : Word) {k : Nat} (hk : k ≤ 9)
    (code : Int) (d : Bool) : (c.reading a sn k code d).Sound := by
  have hres : -8388607 ≤ residualOf code ∧ residualOf code ≤ 8388607 := by
    unfold residualOf clampTo fullScale
    omega
  exact ⟨hres.1, hres.2, h.indexLow, h.indexHigh, hk⟩

/-- A strobe keeps a channel within Table 3-1 (R47, R48). -/
theorem AxisChannel.Sound.strobe {c : AxisChannel} (h : c.Sound) (a : Axis) (sn : Word) {k : Nat} (hk : k ≤ 9)
    (code : Int) (d : Bool) : (c.strobe a sn k code d).Sound := by
  have hlow := h.indexLow
  have hhigh := h.indexHigh
  have hsettle := h.settle
  have hstep : -6 ≤ (c.settleAndStep (residualOf code)).index ∧ (c.settleAndStep (residualOf code)).index ≤ 6
      ∧ (c.settleAndStep (residualOf code)).settle ≤ 3 := by
    unfold AxisChannel.settleAndStep
    split
    · split
      · next hup => exact ⟨by dsimp only; omega, by have := hup.2; unfold indexLimit at this; dsimp only; omega, Nat.le_refl 3⟩
      · split
        · next hdown => exact ⟨by have := hdown.2; unfold indexLimit at this; dsimp only; omega, by dsimp only; omega, Nat.le_refl 3⟩
        · exact ⟨hlow, hhigh, hsettle⟩
    · exact ⟨hlow, hhigh, Nat.le_trans (Nat.sub_le _ _) hsettle⟩
  exact ⟨hstep.1, hstep.2.1, hstep.2.2, fun r hr => by cases hr; exact h.reading a sn hk code d⟩

theorem AxisChannel.Sound.set {c : AxisChannel} (h : c.Sound) {t : OffsetChange}
    (ht : ∀ m, t = .fixed m → -6 ≤ m ∧ m ≤ 6) : (c.set t).Sound := by
  cases t with
  | auto => exact { h with }
  | fixed m => exact { h with indexLow := (ht m rfl).1, indexHigh := (ht m rfl).2, settle := Nat.le_refl 3 }
  | refused => exact h

/-! ## The slot at a strobe -/

/-- A reading is enlisted in a slot that takes its strobe, and in no other (R83). -/
theorem Slot.enlist_of_takes {sl : Slot} {r : Reading} {k : Nat} (hk : r.k = k) (h : sl.takes k = true) :
    sl.enlist r = { sl with readings := sl.readings.modify r.axis (· ++ [r]), disturb := sl.disturb || r.disturb } :=
  if_pos (hk ▸ h)

theorem Slot.enlist_of_not_takes {sl : Slot} {r : Reading} {k : Nat} (hk : r.k = k) (h : sl.takes k = false) :
    sl.enlist r = sl := if_neg (by rw [hk, h]; decide)

/-- The three readings of a strobe in the slot that takes them. -/
def Slot.withReadings (sl : Slot) (x y z : Reading) : Slot :=
  { sl with
    readings := ⟨sl.readings.x ++ [x], sl.readings.y ++ [y], sl.readings.z ++ [z]⟩
    disturb := sl.disturb || x.disturb || y.disturb || z.disturb }

theorem Slot.enlist_three {sl : Slot} {x y z : Reading} {k : Nat} (hx : x.axis = .X ∧ x.k = k) (hy : y.axis = .Y ∧ y.k = k)
    (hz : z.axis = .Z ∧ z.k = k) (h : sl.takes k = true) :
    ((sl.enlist x).enlist y).enlist z = sl.withReadings x y z := by
  rw [Slot.enlist_of_takes hx.2 h, Slot.enlist_of_takes hy.2 (k := k) (by exact h),
    Slot.enlist_of_takes hz.2 (k := k) (by exact h), hx.1, hy.1, hz.1]
  rfl

theorem Slot.enlist_three_not {sl : Slot} {x y z : Reading} {k : Nat} (hx : x.k = k) (hy : y.k = k) (hz : z.k = k)
    (h : sl.takes k = false) : ((sl.enlist x).enlist y).enlist z = sl := by
  rw [Slot.enlist_of_not_takes hx h, Slot.enlist_of_not_takes hy h, Slot.enlist_of_not_takes hz h]

/-- The reading of axis x at strobe k. -/
def State.readingAt (s : State) (k : Nat) (codeX codeY codeZ : Int) (d : Bool) (x : Axis) : Reading :=
  (s.channelAt x k).reading x s.epoch.sn k
    (match x with
      | .X => codeX
      | .Y => codeY
      | .Z => codeZ) d

/-- The slot before the completion of a strobe: the one open, or at strobe 5 the new one, with the readings enlisted. -/
theorem State.strobed_slot (s : State) (k : Nat) (codeX codeY codeZ : Int) (d : Bool) :
    (s.strobed k codeX codeY codeZ d).asm.slot
      = (if k = 5 then some (Slot.opened s.epoch.sn) else s.asm.slot).map (fun sl =>
          ((sl.enlist (s.readingAt k codeX codeY codeZ d .X)).enlist (s.readingAt k codeX codeY codeZ d .Y)).enlist
            (s.readingAt k codeX codeY codeZ d .Z)) := by
  unfold State.strobed State.openSlotIfDue
  dsimp only
  split <;> rfl

/-- The same where the slot takes the readings. -/
theorem State.strobed_slot_of_takes {s : State} {k : Nat} {sl : Slot} (codeX codeY codeZ : Int) (d : Bool)
    (hslot : (if k = 5 then some (Slot.opened s.epoch.sn) else s.asm.slot) = some sl) (htakes : sl.takes k = true) :
    (s.strobed k codeX codeY codeZ d).asm.slot = some (sl.withReadings (s.readingAt k codeX codeY codeZ d .X)
      (s.readingAt k codeX codeY codeZ d .Y) (s.readingAt k codeX codeY codeZ d .Z)) := by
  rw [State.strobed_slot, hslot, Option.map_some]
  exact congrArg some (Slot.enlist_three ⟨rfl, rfl⟩ ⟨rfl, rfl⟩ ⟨rfl, rfl⟩ htakes)

theorem Slot.withReadings_get (sl : Slot) (r : Axis → Reading) (a : Axis) :
    (sl.withReadings (r .X) (r .Y) (r .Z)).readings.get a = sl.readings.get a ++ [r a] := by
  cases a <;> rfl

/-! ## How full the slot is (R82, R83) -/

/-- Before strobe 5 no slot stands open; before any other strobe one does that takes its readings, and holds those of the
strobes before. -/
theorem slotFits_some {k n : Nat} {slot : Option Slot} (h : slotFits (some k) slot n = true) (hk : k < 10) :
    (slot = none ∧ k = 5)
      ∨ ∃ sl, slot = some sl ∧ sl.takes k = true ∧ ((sl.arrived = true ∧ k ≤ 4 ∧ (n = k ∨ n = 5 + k))
        ∨ (sl.arrived = false ∧ 6 ≤ k ∧ n + 5 = k)) := by
  cases slot with
  | none => exact .inl ⟨rfl, by simpa [slotFits] using h⟩
  | some sl =>
    refine .inr ⟨sl, rfl, ?_⟩
    unfold slotFits at h
    unfold Slot.takes
    cases harrived : sl.arrived with
    | true =>
      simp [harrived] at h
      exact ⟨by rw [if_pos (by omega)], .inl ⟨rfl, h.1, h.2⟩⟩
    | false =>
      simp [harrived] at h
      exact ⟨by rw [if_neg (by omega)]; rfl, .inr ⟨rfl, h.1, h.2⟩⟩

/-- When all ten strobes have been issued, the slot of the coming boundary holds five readings. -/
theorem slotFits_none {n : Nat} {slot : Option Slot} (h : slotFits none slot n = true) :
    ∃ sl, slot = some sl ∧ sl.arrived = false ∧ n = 5 := by
  cases slot with
  | none => cases h
  | some sl =>
    simp [slotFits] at h
    exact ⟨sl, rfl, h.1, h.2⟩

theorem slotFits_arrived {sl : Slot} {k n : Nat} (h : sl.arrived = true) (hk : k ≤ 4) (hn : n = k ∨ n = 5 + k) :
    slotFits (some k) (some sl) n = true := by simp [slotFits, h, hk, hn]

/-- One more reading of the coming boundary, up to the tenth strobe. -/
theorem slotFits_next {sl : Slot} {k n : Nat} (h : sl.arrived = false) (hk : 5 ≤ k) (hn : n + 4 = k) :
    slotFits (if k = 9 then none else some (k + 1)) (some sl) n = true := by
  split
  · simp [slotFits, h]; omega
  · simp [slotFits, h]; omega

end Sys2Proof.Machine
end

section
/-! SUPPORT. The field invariant along every event. -/

namespace Sys2Proof.Machine

/-! ## A strobe -/

/-- What a strobe leaves alone is the same in both states (R46, R86). -/
structure State.StrobeFrame (u s : State) : Prop where
  powered : u.powered = s.powered
  disc : u.disc = s.disc
  thermTS : u.thermTS = s.thermTS
  thermTO : u.thermTO = s.thermTO
  cal : u.cal = s.cal
  store : u.store = s.store
  resetWaiting : u.resetWaiting = s.resetWaiting
  samples : u.samples = s.samples
  earlier : u.earlier = s.earlier
  pending : u.pending = s.pending

theorem State.strobed_frame (s : State) (k : Nat) (codeX codeY codeZ : Int) (d : Bool) :
    (s.strobed k codeX codeY codeZ d).StrobeFrame s := by
  unfold State.strobed State.openSlotIfDue
  dsimp only
  split <;> exact ⟨rfl, rfl, rfl, rfl, rfl, rfl, rfl, rfl, rfl, rfl⟩

theorem State.strobed_replaced (s : State) (k : Nat) (codeX codeY codeZ : Int) (d : Bool) :
    (s.strobed k codeX codeY codeZ d).replaced = some ⟨s.axes.map (·.latest), s.markContext⟩ := by
  unfold State.strobed State.openSlotIfDue
  dsimp only
  split <;> rfl

theorem State.strobeWork_frame (s : State) (k : Nat) (codeX codeY codeZ : Int) (d : Bool) :
    (s.strobeWork k codeX codeY codeZ d).StrobeFrame s := by
  rw [State.strobeWork_eq]
  have h := (State.completeIfDue_keeps (s.strobed k codeX codeY codeZ d) k).1
  have g := s.strobed_frame k codeX codeY codeZ d
  exact ⟨h.powered.trans g.powered, h.disc.trans g.disc, h.thermTS.trans g.thermTS, h.thermTO.trans g.thermTO,
    h.cal.trans g.cal, h.store.trans g.store, h.resetWaiting.trans g.resetWaiting, h.samples.trans g.samples,
    h.earlier.trans g.earlier, h.pending.trans g.pending⟩

/-- A strobe keeps the readings it replaces in reach of a mark of its instant (R46). -/
theorem State.strobeWork_replaced (s : State) (k : Nat) (codeX codeY codeZ : Int) (d : Bool) :
    (s.strobeWork k codeX codeY codeZ d).replaced = some ⟨s.axes.map (·.latest), s.markContext⟩ := by
  rw [State.strobeWork_eq, (State.completeIfDue_keeps _ _).1.replaced, State.strobed_replaced]

/-- Strobe 4 completes an arrived slot with its own readings in it (R85). -/
theorem State.strobeWork_four {s : State} {sl : Slot} (codeX codeY codeZ : Int) (d : Bool) (hslot : s.asm.slot = some sl)
    (harrived : sl.arrived = true) :
    s.strobeWork 4 codeX codeY codeZ d = (s.strobed 4 codeX codeY codeZ d).complete
      (sl.withReadings (s.readingAt 4 codeX codeY codeZ d .X) (s.readingAt 4 codeX codeY codeZ d .Y)
        (s.readingAt 4 codeX codeY codeZ d .Z)) := by
  have hstrobed := State.strobed_slot_of_takes codeX codeY codeZ d (s := s) (k := 4) (sl := sl) hslot harrived
  rw [State.strobeWork_eq, State.completeIfDue, hstrobed]
  exact if_pos harrived

theorem State.complete_asm (s : State) (sl : Slot) : (s.complete sl).asm = ⟨none, s.cal.version, false⟩ :=
  (State.appendRecord_keeps _ _).2.2.2

/-- The slot after a strobe: closed by strobe 4, else with one more reading in each list. -/
theorem State.FieldSound.strobeWork_slot {s : State} (h : s.FieldSound) {k : Nat} (hnext : s.epoch.nextStrobe = some k)
    (codeX codeY codeZ : Int) (d : Bool) :
    (k = 4 ∧ (s.strobeWork k codeX codeY codeZ d).asm.slot = none)
      ∨ ∃ sl, (if k = 5 then some (Slot.opened s.epoch.sn) else s.asm.slot) = some sl ∧ k ≠ 4
        ∧ (s.strobeWork k codeX codeY codeZ d).asm.slot = some (sl.withReadings (s.readingAt k codeX codeY codeZ d .X)
            (s.readingAt k codeX codeY codeZ d .Y) (s.readingAt k codeX codeY codeZ d .Z)) := by
  have hk : k < 10 := (EpochTimer.nextStrobe_eq_some.mp hnext).1
  have hfit := (h.lists .X).1
  rw [hnext] at hfit
  rcases slotFits_some hfit hk with ⟨-, rfl⟩ | ⟨sl, hsl, htakes, hcount⟩
  · refine .inr ⟨Slot.opened s.epoch.sn, rfl, by decide, ?_⟩
    rw [State.strobeWork_eq, (State.completeIfDue_keeps _ _).2.2.2 (by decide)]
    exact State.strobed_slot_of_takes codeX codeY codeZ d rfl rfl
  · by_cases h4 : k = 4
    · subst h4
      have harrived : sl.arrived = true := htakes
      exact .inl ⟨rfl, by rw [State.strobeWork_four codeX codeY codeZ d hsl harrived, State.complete_asm]⟩
    · have hopen : (if k = 5 then some (Slot.opened s.epoch.sn) else s.asm.slot) = some sl := by
        rw [if_neg (by omega), hsl]
      refine .inr ⟨sl, hopen, h4, ?_⟩
      rw [State.strobeWork_eq, (State.completeIfDue_keeps _ _).2.2.2 h4]
      exact State.strobed_slot_of_takes codeX codeY codeZ d hopen htakes

/-- A strobe fills the lists of the slot that is open then, and closes or opens one at its place (R82 to R85). -/
theorem State.FieldSound.strobeWork {s : State} (h : s.FieldSound) {k : Nat} (hnext : s.epoch.nextStrobe = some k)
    (htick : s.epoch.tickPos = strobePos k) (codeX codeY codeZ : Int) (d : Bool) :
    (s.strobeWork k codeX codeY codeZ d).FieldSound := by
  have hk : k < 10 := (EpochTimer.nextStrobe_eq_some.mp hnext).1
  have hframe := s.strobeWork_frame k codeX codeY codeZ d
  have hafter : (s.strobeWork k codeX codeY codeZ d).epoch.nextStrobe = if k = 9 then none else some (k + 1) := by
    rw [(s.strobeWork_scale k codeX codeY codeZ d).1, EpochTimer.nextStrobe_issued _ k hk htick]
  have hreading : ∀ a, (s.readingAt k codeX codeY codeZ d a).Sound := fun a =>
    (s.channelAt_sound h a k).reading a _ (by omega) _ d
  have hslot := h.strobeWork_slot hnext codeX codeY codeZ d
  refine ⟨?axes, hframe.thermTS ▸ h.thermTS, hframe.thermTO ▸ h.thermTO, ?lists, ?replaced, hframe.earlier ▸ h.earlier,
    ?slotLabel⟩
  case axes =>
    intro a
    rw [State.strobeWork_axes]
    exact AxisChannel.setAll_sound _ _ ((s.channelAt_sound h a k).strobe a _ (by omega) _ d)
      (fun t ht => (h.earlier a t ((s.lateSettings_prefix a k).subset ht)).2)
  case replaced =>
    intro old hold a r hr
    rw [State.strobeWork_replaced] at hold
    cases hold
    rw [PerAxis.get_map] at hr
    exact (h.axes a).latest r hr
  case slotLabel =>
    intro sl hsl
    rcases hslot with ⟨-, hnone⟩ | ⟨sl0, hopen, -, hsome⟩
    · rw [hnone] at hsl; cases hsl
    · rw [hsome] at hsl
      cases hsl
      show sl0.label.isSome = sl0.arrived
      split at hopen
      · cases hopen; rfl
      · exact h.slotLabel sl0 hopen
  case lists =>
    intro a
    obtain ⟨hfit, hsound⟩ := h.lists a
    rw [hnext] at hfit
    unfold State.listSound
    rw [hafter]
    rcases hslot with ⟨rfl, hnone⟩ | ⟨sl, hopen, h4, hsome⟩
    · rw [hnone]
      exact ⟨rfl, by simp⟩
    rw [hsome, Option.map_some, Option.getD_some, Slot.withReadings_get _ (s.readingAt k codeX codeY codeZ d)]
    dsimp only
    rcases slotFits_some hfit hk with ⟨-, rfl⟩ | ⟨sl', hsl, -, hcount⟩
    · cases hopen
      cases a <;> exact ⟨rfl, fun r hr => by cases List.mem_singleton.mp hr; exact hreading _⟩
    · rw [if_neg (by omega), hsl] at hopen
      cases hopen
      rw [hsl, Option.map_some, Option.getD_some] at hcount hsound
      refine ⟨?fits, fun r hr => ?sound⟩
      case fits =>
        rw [List.length_append, List.length_singleton]
        rcases hcount with ⟨harrived, hle, hn⟩ | ⟨harrived, hle, hn⟩
        · rw [if_neg (by omega)]
          exact slotFits_arrived harrived (by omega) (by omega)
        · exact slotFits_next harrived (by omega) (by omega)
      case sound =>
        rcases List.mem_append.mp hr with hr | hr
        · exact hsound r hr
        · cases List.mem_singleton.mp hr; exact hreading a

/-! ## Boundaries, PPS edges and midpoint marks -/

theorem State.boundary_nextStrobe (s : State) (isStep : Bool) (sn : Word) :
    (s.boundary isStep sn).epoch.nextStrobe = some 0 :=
  EpochTimer.nextStrobe_at_zero _ (by rw [(s.boundary_outcome isStep sn).epoch])

/-- What a boundary leaves of the field invariant to show: the slot after it. -/
theorem State.FieldSound.boundary {s : State} (h : s.FieldSound) (isStep : Bool) (sn : Word)
    (hlists : ∀ a, (s.boundary isStep sn).listSound a)
    (hlabel : ∀ sl, (s.boundary isStep sn).asm.slot = some sl → sl.label.isSome = sl.arrived) :
    (s.boundary isStep sn).FieldSound := by
  have hout := s.boundary_outcome isStep sn
  have hframe := ScaleFrame.boundary s isStep sn
  exact
    { axes := hframe.axes ▸ h.axes
      thermTS := by rw [hout.thermTS]; exact h.thermTS.order
      thermTO := by rw [hout.thermTO]; exact h.thermTO.order
      lists := hlists
      replaced := hframe.replaced ▸ h.replaced
      earlier := hframe.earlier ▸ h.earlier
      slotLabel := hlabel }

/-- A step boundary leaves one empty slot, centred on itself (R99). -/
theorem State.FieldSound.stepBoundary {s : State} (h : s.FieldSound) (sn : Word) : (s.boundary true sn).FieldSound := by
  have hasm := (s.boundary_outcome true sn).stepSlot rfl
  refine h.boundary true sn (fun a => ?_) (fun sl hsl => ?_)
  · unfold State.listSound
    rw [State.boundary_nextStrobe, hasm]
    cases a <;> exact ⟨rfl, by simp [PerAxis.get]⟩
  · rw [hasm] at hsl
    cases hsl
    rfl

/-- The ordinary boundary meets the slot that strobes 5 to 9 have filled (R84). -/
theorem State.FieldSound.ordinaryBoundary {s : State} (h : s.FieldSound) (hnone : s.epoch.nextStrobe = none) (sn : Word) :
    (s.boundary false sn).FieldSound := by
  have hfull : ∀ a, ∃ sl, s.asm.slot = some sl ∧ sl.arrived = false
      ∧ ((s.asm.slot.map (fun sl => sl.readings.get a)).getD []).length = 5 := fun a =>
    slotFits_none (hnone ▸ (h.lists a).1)
  obtain ⟨sl, hsl, harrived, -⟩ := hfull .X
  have hasm := (s.boundary_outcome false sn).ordinarySlot rfl sl hsl harrived
  refine h.boundary false sn (fun a => ?_) (fun sl' hsl' => ?_)
  · obtain ⟨-, -, -, hlength⟩ := hfull a
    obtain ⟨-, hsound⟩ := h.lists a
    rw [hsl] at hlength hsound
    unfold State.listSound
    rw [State.boundary_nextStrobe, hasm]
    exact ⟨slotFits_arrived rfl (by decide) (.inr hlength), hsound⟩
  · rw [hasm] at hsl'
    cases hsl'
    rfl

theorem State.FieldFrame.enterClock (s : State) (c : ClockState) : (s.enterClock c).FieldFrame s :=
  ⟨rfl, rfl, rfl, rfl, rfl, rfl, rfl⟩

theorem State.FieldFrame.setDisc (s : State) (d : Discipline) : State.FieldFrame { s with disc := d } s :=
  ⟨rfl, rfl, rfl, rfl, rfl, rfl, rfl⟩

theorem State.FieldFrame.onLink (s : State) (l : Link) (f : LinkState → LinkState) : (s.onLink l f).FieldFrame s :=
  ⟨rfl, rfl, rfl, rfl, rfl, rfl, rfl⟩

theorem State.FieldFrame.acquireUpdate (s : State) (p : Int) : (s.acquireUpdate p).FieldFrame s := by
  unfold State.acquireUpdate
  dsimp only
  split <;> exact ⟨rfl, rfl, rfl, rfl, rfl, rfl, rfl⟩

theorem State.FieldSound.phaseStep {u s : State} (h : s.FieldSound) (hf : u.FieldFrame s) (p : Int) :
    (u.phaseStep p).FieldSound := (h.frame hf).stepBoundary _

/-- An edge steps the time scale, or leaves the field alone. -/
theorem State.FieldSound.evaluateEdge {s : State} (h : s.FieldSound) (p : Int) : (s.evaluateEdge p).FieldSound := by
  unfold State.evaluateEdge
  split
  · exact h.phaseStep (.enterClock s .acquire) p
  · split
    · exact h.frame (.acquireUpdate s p)
    · exact h.phaseStep (.setDisc s _) p
  · split
    · exact h.frame ⟨rfl, rfl, rfl, rfl, rfl, rfl, rfl⟩
    · unfold State.outlierEdge
      dsimp only
      split
      · exact h.phaseStep ((FieldFrame.enterClock _ _).trans (.setDisc s _)) p
      · exact h.frame ⟨rfl, rfl, rfl, rfl, rfl, rfl, rfl⟩
  · split
    · exact h.frame ⟨rfl, rfl, rfl, rfl, rfl, rfl, rfl⟩
    · exact h.phaseStep (.enterClock s .acquire) p

theorem State.FieldSound.ppsRecognised {s : State} (h : s.FieldSound) : s.ppsRecognised.FieldSound := by
  unfold State.ppsRecognised
  dsimp only
  split
  · exact h.frame ⟨rfl, rfl, rfl, rfl, rfl, rfl, rfl⟩
  · have hset : ∀ p d, State.FieldSound { s with samples := p, disc := d } := fun _ _ =>
      h.frame ⟨rfl, rfl, rfl, rfl, rfl, rfl, rfl⟩
    exact (hset _ _).evaluateEdge _

/-- At the midpoint mark no strobe is issued: its position is that of none. -/
theorem EpochTimer.nextStrobe_issued_of_ne {e : EpochTimer} (h : ∀ k, e.tickPos ≠ strobePos k) :
    EpochTimer.nextStrobe { e with issued := true } = e.nextStrobe := by
  have hahead : ∀ k, EpochTimer.ahead { e with issued := true } (strobePos k) = e.ahead (strobePos k) := fun k => by
    simp [EpochTimer.ahead, h k]
  unfold EpochTimer.nextStrobe
  simp only [hahead]

theorem State.closeWindow_fieldFrame {s : State} (hepoch : s.epoch.Sound) (htick : s.epoch.tickPos = s.epoch.midpoint) :
    s.markIssued.closeWindow.FieldFrame s := by
  have hlow := hepoch.lenLow
  have hhigh := hepoch.lenHigh
  have hnext : s.markIssued.epoch.nextStrobe = s.epoch.nextStrobe :=
    EpochTimer.nextStrobe_issued_of_ne fun k => by
      rw [htick]
      unfold EpochTimer.midpoint strobePos
      omega
  have hissued : s.markIssued.FieldFrame s := ⟨rfl, rfl, rfl, rfl, rfl, rfl, hnext⟩
  have hmissing : s.markIssued.missingWindow.FieldFrame s.markIssued := by
    unfold State.missingWindow
    split
    · exact .refl _
    · dsimp only
      split <;> exact ⟨rfl, rfl, rfl, rfl, rfl, rfl, rfl⟩
    · dsimp only
      split <;> exact ⟨rfl, rfl, rfl, rfl, rfl, rfl, rfl⟩
    · exact .refl _
  unfold State.closeWindow
  dsimp only
  split
  · exact (FieldFrame.setDisc _ _).trans hissued
  · exact (FieldFrame.setDisc _ _).trans (hmissing.trans hissued)

/-! ## Marks -/

theorem State.FieldSound.captureReading {s : State} (h : s.FieldSound) {a : Axis} {r : Reading}
    (hr : s.captureReading a = some r) : r.Sound := by
  rcases s.captureReading_mem a with hc | ⟨old, hold, -, hc⟩ <;> rw [hc] at hr
  · exact (h.axes a).latest r hr
  · exact h.replaced old hold a r hr

theorem State.FieldSound.markTaken {s : State} (h : s.FieldSound) : s.markTaken.FieldSound := by
  have hreplaced : ∀ old, s.markTaken.replaced = some old → ∀ a q, old.readings.get a = some q → q.Sound := by
    intro old hold a q hq
    obtain ⟨old0, -, rfl⟩ := Option.map_eq_some_iff.mp hold
    exact h.captureReading (a := a) (by cases a <;> exact hq)
  exact State.FieldSound.frame (h.setReplaced hreplaced) ⟨rfl, rfl, rfl, rfl, rfl, rfl, rfl⟩

/-! ## Station commands -/

/-- Channels, readings in reach and SET OFFSETs of this instant are the same in both states. -/
structure State.ChannelFrame (u s : State) : Prop where
  axes : u.axes = s.axes
  replaced : u.replaced = s.replaced
  earlier : u.earlier = s.earlier

namespace State.ChannelFrame

theorem refl (s : State) : s.ChannelFrame s := ⟨rfl, rfl, rfl⟩

theorem trans {a b c : State} (h : a.ChannelFrame b) (g : b.ChannelFrame c) : a.ChannelFrame c :=
  ⟨h.axes.trans g.axes, h.replaced.trans g.replaced, h.earlier.trans g.earlier⟩

theorem startWrite (s : State) (k : WriteKind) : (s.startWrite k).ChannelFrame s := by
  cases k <;> exact ⟨rfl, rfl, rfl⟩

theorem requestWrite (s : State) (k : WriteKind) : (s.requestWrite k).ChannelFrame s := by
  cases k <;> simp only [State.requestWrite] <;> split <;> exact ⟨rfl, rfl, rfl⟩

theorem chooseWrite (s : State) : s.chooseWrite.ChannelFrame s := by
  unfold State.chooseWrite
  split
  · exact refl s
  · split
    · exact ⟨rfl, rfl, rfl⟩
    · split <;> exact ⟨rfl, rfl, rfl⟩

theorem endWrite (s : State) (w : StoreWrite) (success : Bool) : (s.endWrite w success).ChannelFrame s := by
  have succeed : ∀ (u : State) v, (u.commitSuccess v).ChannelFrame u := by
    intro u v
    unfold State.commitSuccess
    split
    · exact refl u
    · exact refl u
    · dsimp only
      split <;> exact ⟨rfl, rfl, rfl⟩
  have fail : ∀ u : State, u.commitFault.ChannelFrame u := by
    intro u
    unfold State.commitFault
    split
    · exact refl u
    · exact refl u
    · split <;> exact ⟨rfl, rfl, rfl⟩
  unfold State.endWrite
  dsimp only
  refine (chooseWrite _).trans ?_
  cases w.kind <;> cases success
  · exact (fail _).trans ⟨rfl, rfl, rfl⟩
  · exact (succeed _ _).trans ⟨rfl, rfl, rfl⟩
  · exact ⟨rfl, rfl, rfl⟩
  · exact ⟨rfl, rfl, rfl⟩

theorem editWrite (s : State) (l : Link) (write : CalSet → Option CalSet) : (s.editWrite l write).ChannelFrame s := by
  unfold State.editWrite
  split
  · exact ⟨rfl, rfl, rfl⟩
  · split
    · split <;> exact ⟨rfl, rfl, rfl⟩
    · exact ⟨rfl, rfl, rfl⟩
  · split <;> exact ⟨rfl, rfl, rfl⟩

theorem answerTable (s : State) (l : Link) (p : List Byte) (c : CalSet) : (s.answerTable l p c).ChannelFrame s := by
  unfold State.answerTable
  split <;> exact ⟨rfl, rfl, rfl⟩

end State.ChannelFrame

/-- The commands that reach the channels or the readings in reach of a mark. -/
def Kind.reachesField : Kind → Bool
  | .readStatus | .readNotice | .setNoticeMask | .mark | .setOffset => true
  | _ => false

/-- Every other command leaves both alone. -/
theorem State.ChannelFrame.takeKind (s : State) (l : Link) {k : Kind} (tag : Byte) (p : List Byte)
    (hk : k.reachesField = false) : (s.takeKind l k tag p).ChannelFrame s := by
  cases k
  case readStatus => cases hk
  case readNotice => cases hk
  case setNoticeMask => cases hk
  case mark => cases hk
  case setOffset => cases hk
  case readRecords =>
    simp only [State.takeKind, State.takeReadRecords]
    split <;> exact ⟨rfl, rfl, rfl⟩
  case stream =>
    simp only [State.takeKind, State.takeStream]
    split <;> exact ⟨rfl, rfl, rfl⟩
  case seek =>
    simp only [State.takeKind, State.takeSeek, State.seekNewest, State.seekNumber]
    split
    · exact ⟨rfl, rfl, rfl⟩
    · split <;> exact ⟨rfl, rfl, rfl⟩
    · exact ⟨rfl, rfl, rfl⟩
    · split <;> exact ⟨rfl, rfl, rfl⟩
    · exact ⟨rfl, rfl, rfl⟩
  case readMark =>
    simp only [State.takeKind, State.takeReadMark]
    split <;> exact ⟨rfl, rfl, rfl⟩
  case setMarkLine =>
    simp only [State.takeKind, State.takeSetMarkLine]
    split <;> exact ⟨rfl, rfl, rfl⟩
  case labelNextSecond =>
    simp only [State.takeKind, State.takeLabel]
    split
    · exact ⟨rfl, rfl, rfl⟩
    · split
      · exact ⟨rfl, rfl, rfl⟩
      · split <;> exact ⟨rfl, rfl, rfl⟩
  case openEdit =>
    simp only [State.takeKind, State.takeOpenEdit]
    split
    · split <;> exact ⟨rfl, rfl, rfl⟩
    · split <;> exact ⟨rfl, rfl, rfl⟩
    · exact ⟨rfl, rfl, rfl⟩
  case writeKnot => exact .editWrite _ _ _
  case writeBand => exact .editWrite _ _ _
  case writeBias => exact .editWrite _ _ _
  case writeHoldoverRate => exact .editWrite _ _ _
  case commit =>
    simp only [State.takeKind, State.takeCommit]
    split
    · exact ⟨rfl, rfl, rfl⟩
    · split
      · exact (ChannelFrame.requestWrite _ _).trans ⟨rfl, rfl, rfl⟩
      · exact ⟨rfl, rfl, rfl⟩
    · exact ⟨rfl, rfl, rfl⟩
  case abandon =>
    simp only [State.takeKind, State.takeAbandon]
    split
    · exact ⟨rfl, rfl, rfl⟩
    · split <;> exact ⟨rfl, rfl, rfl⟩
    · exact ⟨rfl, rfl, rfl⟩
  case lockCalibration =>
    simp only [State.takeKind, State.takeLock]
    split <;> exact ⟨rfl, rfl, rfl⟩
  case readTable =>
    simp only [State.takeKind, State.takeReadTable]
    split
    · exact .answerTable _ _ _ _
    · unfold State.readShadow
      split
      · exact ⟨rfl, rfl, rfl⟩
      · split
        · exact (ChannelFrame.answerTable _ _ _ _).trans ⟨rfl, rfl, rfl⟩
        · exact ⟨rfl, rfl, rfl⟩
      · exact ⟨rfl, rfl, rfl⟩
    · exact ⟨rfl, rfl, rfl⟩
  case setBaseline =>
    simp only [State.takeKind, State.takeSetBaseline]
    split
    · exact ChannelFrame.trans (b := State.requestWrite _ .baseline) ⟨rfl, rfl, rfl⟩
        ((ChannelFrame.requestWrite _ _).trans (by cases l <;> exact ⟨rfl, rfl, rfl⟩))
    · exact ⟨rfl, rfl, rfl⟩

/-- An event that touches neither thermometers nor slot nor strobes, and leaves the channels alone. -/
theorem State.FieldSound.command {u s : State} (h : s.FieldSound) (hc : u.ChannelFrame s) (hf : u.CommandFrame s)
    (hl : u.epoch.nextStrobe = s.epoch.nextStrobe) : u.FieldSound :=
  h.frame ⟨hc.axes, hf.thermTS, hf.thermTO, hf.slot, hc.replaced, hc.earlier, hl⟩

theorem State.FieldSound.seeStrobe {s : State} (h : s.FieldSound) : s.seeStrobe.FieldSound :=
  h.setReplaced (fun _ hold => by cases hold)

/-- SET OFFSET keeps the channel of its axis within Table 3-1, and remembers the one before (R54, R86). -/
theorem State.FieldSound.changeAxis {s : State} (h : s.FieldSound) (l : Link) (a : Axis) {t : OffsetChange}
    (ht : ∀ m, t = .fixed m → -6 ≤ m ∧ m ≤ 6) (st : Status) : (s.changeAxis l a t st).FieldSound where
  axes b := by
    by_cases hb : b = a
    · subst hb
      have hset := (h.axes b).set ht
      rw [← PerAxis.get_modify_same s.axes b (AxisChannel.set t)] at hset
      exact hset
    · have hother := h.axes b
      rw [← PerAxis.get_modify_other s.axes hb (AxisChannel.set t)] at hother
      exact hother
  thermTS := h.thermTS
  thermTO := h.thermTO
  lists b := State.listSound_congr rfl rfl (h.lists b)
  replaced := h.replaced
  earlier b := by
    show ∀ q ∈ (s.earlier.modify a (fun ts => ⟨l, s.axes.get a, t⟩ :: ts)).get b, _
    by_cases hb : b = a
    · subst hb
      rw [PerAxis.get_modify_same]
      intro q hq
      rcases List.mem_cons.mp hq with rfl | hq
      · exact ⟨h.axes b, ht⟩
      · exact h.earlier b q hq
    · rw [PerAxis.get_modify_other _ hb]
      exact h.earlier b
  slotLabel := h.slotLabel

theorem State.FieldSound.takeSetOffset {s : State} (h : s.FieldSound) (l : Link) (p : List Byte) :
    (s.takeSetOffset l p).FieldSound := by
  unfold State.takeSetOffset
  split
  · exact h.changeAxis l _ (fun m hm => by cases hm) _
  · dsimp only
    split
    · next hm => exact h.changeAxis l _ (fun m hm' => by cases hm'; exact hm) _
    · exact h.changeAxis l _ (fun m hm => by cases hm) _
  · exact h.frame ⟨rfl, rfl, rfl, rfl, rfl, rfl, rfl⟩
  · exact h.frame ⟨rfl, rfl, rfl, rfl, rfl, rfl, rfl⟩

theorem State.FieldSound.takeKind {s : State} (h : s.FieldSound) (l : Link) (k : Kind) (tag : Byte) (p : List Byte) :
    (s.takeKind l k tag p).FieldSound := by
  cases hk : k.reachesField with
  | false =>
    exact h.command (.takeKind s l tag p hk) (.takeKind s l k tag p) (s.takeKind_labelOnly l k tag p).nextStrobe
  | true =>
    cases k
    case readStatus =>
      have hseen : State.FieldSound { s.seeStrobe with earlier := PerAxis.fill [] } :=
        { h.seeStrobe with
          lists := fun a => State.listSound_congr rfl rfl (h.lists a)
          earlier := fun a t ht => by rw [PerAxis.get_fill] at ht; cases ht }
      exact hseen.frame ⟨rfl, rfl, rfl, rfl, rfl, rfl, rfl⟩
    case readNotice =>
      simp only [State.takeKind, State.takeReadNotice]
      split <;> exact h.seeStrobe.frame ⟨rfl, rfl, rfl, rfl, rfl, rfl, rfl⟩
    case setNoticeMask => exact h.seeStrobe.frame ⟨rfl, rfl, rfl, rfl, rfl, rfl, rfl⟩
    case mark => exact h.markTaken.frame ⟨rfl, rfl, rfl, rfl, rfl, rfl, rfl⟩
    case setOffset => exact h.takeSetOffset l p
    all_goals cases hk

theorem State.FieldSound.begin {s : State} (h : s.FieldSound) (l : Link) (c : Command) : (s.begin l c).FieldSound := by
  have hanswer : ∀ st, ((s.onLink l (LinkState.enter c)).answer l st []).FieldSound := fun _ =>
    h.frame ⟨rfl, rfl, rfl, rfl, rfl, rfl, rfl⟩
  unfold State.begin State.execute
  split
  · exact hanswer _
  · split
    · exact (h.frame (.onLink s l _)).takeKind _ _ _ _
    · exact hanswer _

theorem State.FieldSound.handOver {s : State} (h : s.FieldSound) (l : Link) (c : Command) :
    (s.handOver l c).FieldSound := by
  unfold State.handOver
  split
  · exact h.begin l c
  · exact h.frame ⟨rfl, rfl, rfl, rfl, rfl, rfl, rfl⟩

theorem State.FieldSound.endReply {s : State} (h : s.FieldSound) (l : Link) : (s.endReply l).FieldSound := by
  unfold State.endReply
  split
  · unfold State.leave
    split
    · exact h.frame ⟨rfl, rfl, rfl, rfl, rfl, rfl, rfl⟩
    · exact (h.frame ((FieldFrame.onLink _ _ _).trans (.onLink s l _))).begin _ _
  · exact h.frame ⟨rfl, rfl, rfl, rfl, rfl, rfl, rfl⟩
  · exact h
  · exact h
  · exact h

/-! ## The invariant -/

theorem State.FieldSound.takeConversion {s : State} (h : s.FieldSound) (ch : Channel) (r : ConvResult) :
    (s.takeConversion ch r).FieldSound := by
  have htaken : (s.setThermometer ((s.thermometer ch).take r) ch).FieldSound := by
    cases ch
    · exact { h with thermTS := h.thermTS.take r, lists := fun a => State.listSound_congr rfl rfl (h.lists a) }
    · exact { h with thermTO := h.thermTO.take r, lists := fun a => State.listSound_congr rfl rfl (h.lists a) }
  unfold State.takeConversion
  dsimp only
  split
  · exact htaken
  · exact htaken.frame ⟨rfl, rfl, rfl, rfl, rfl, rfl, rfl⟩

/-- Time that passes nothing due leaves the next strobe and the slot what they are. -/
theorem State.FieldSound.advance {s : State} (h : s.FieldSound) {w : Nat} (hw : s.mayWait w) :
    (s.advance w).FieldSound where
  axes := by rw [State.advance_axes]; exact h.axes
  thermTS := by
    have := s.advance_thermometer w .TS
    simp only [State.thermometer] at this
    rw [this]
    split
    · exact h.thermTS
    · exact h.thermTS.elapse w
  thermTO := by
    have := s.advance_thermometer w .TO
    simp only [State.thermometer] at this
    rw [this]
    split
    · exact h.thermTO
    · exact h.thermTO.elapse w
  lists a := State.listSound_congr (by rw [State.advance_asm]) (State.nextStrobe_of_mayWait hw) (h.lists a)
  replaced := by
    rw [State.advance_replaced]
    split
    · exact h.replaced
    · intro old hold
      cases hold
  earlier := by
    rw [State.advance_earlier]
    split
    · exact h.earlier
    · intro a t ht
      rw [PerAxis.get_fill] at ht
      cases ht
  slotLabel := by rw [State.advance_asm]; exact h.slotLabel

/-- Channels, thermometers and slot hold what a reset gives them (Tables 3-3, 4-3, 5-8; R102). -/
theorem State.FieldSound.atReset (s : State) (ring : Ring) (links : PerLink LinkState) (samples : Samples) :
    (s.resetBlocks ring links samples).FieldSound where
  axes a := by cases a <;> exact AxisChannel.atReset_sound
  thermTS := Thermometer.atReset_sound
  thermTO := Thermometer.atReset_sound
  lists a := by
    have hnext : EpochTimer.atReset.nextStrobe = some 0 := EpochTimer.nextStrobe_at_zero _ rfl
    unfold State.listSound
    rw [show (s.resetBlocks ring links samples).epoch = EpochTimer.atReset from rfl, hnext]
    cases a <;> exact ⟨rfl, by simp [State.resetBlocks, Assembler.atReset, Slot.atReset, PerAxis.get, PerAxis.fill]⟩
  replaced old hold := by cases hold
  earlier a t ht := by cases a <;> cases ht
  slotLabel sl hsl := by cases hsl; rfl

/-- The field invariant with the clock it rests on. -/
def State.FieldKept (s : State) : Prop := s.FieldSound ∧ s.ClockSound

/-- An event of one link alone. -/
theorem State.FieldKept.onLink {s : State} (h : s.FieldKept) (l : Link) (f : LinkState → LinkState) :
    (s.onLink l f).FieldSound := h.1.frame ⟨rfl, rfl, rfl, rfl, rfl, rfl, rfl⟩

/-- Every event keeps channels, thermometers and the open slot within their tables. -/
theorem State.fieldKept_ledByEvents : LedByEvents State.FieldKept State.FieldSound where
  stay _ h := h.1
  time _ _ h hw := ⟨h.1.advance hw, h.2.advance hw⟩
  powerOn s _ := .atReset s _ _ _
  warm s _ _ _ := .atReset s _ _ _
  resetRequest _ h _ := h.1.frame ⟨rfl, rfl, rfl, rfl, rfl, rfl, rfl⟩
  boundary s sn h _ hlen :=
    h.1.ordinaryBoundary (s.epoch.nextStrobe_at_end (Nat.le_trans h.2.epoch.lenLow hlen)) sn
  strobe _ _ codeX codeY codeZ d h _ hnext htick := h.1.strobeWork hnext htick codeX codeY codeZ d
  midpoint _ h _ _ htick := h.1.frame (State.closeWindow_fieldFrame h.2.epoch htick)
  pps _ h _ := h.1.ppsRecognised
  conversion _ ch r h _ _ := h.1.takeConversion ch r
  lineMark _ h _ := h.1.markTaken.frame ⟨rfl, rfl, rfl, rfl, rfl, rfl, rfl⟩
  expire _ _ _ h _ _ := h.1.frame ⟨rfl, rfl, rfl, rfl, rfl, rfl, rfl⟩
  endWrite s w success h _ _ := h.1.command (.endWrite s w success) (.endWrite s w success)
    (by rw [State.endWrite_epoch])
  ready _ l _ h _ := h.onLink l _
  framingError _ l h _ _ := h.onLink l _
  timeOut _ l h _ := h.onLink l _
  dropBad _ l h _ := h.onLink l _
  takeByte _ l _ _ h _ _ := h.onLink l _
  holdByte _ l h _ _ := h.onLink l _
  acceptFrame _ l _ c h _ _ := State.FieldSound.handOver (h.onLink l _) l c
  handOver _ l c h _ := h.1.handOver l c
  startBreak _ _ h _ := h.1.frame ⟨rfl, rfl, rfl, rfl, rfl, rfl, rfl⟩
  endBreak _ l h _ _ := h.onLink l _
  beginReply _ l h _ _ := h.onLink l _
  endReply _ l h _ := h.1.endReply l
  beginTransfer s l h _ _ := by
    unfold State.beginTransferFrame
    dsimp only
    split
    · exact h.1
    · exact h.onLink l _
  endTransfer _ l h _ := h.onLink l _
  beginStream s l h _ _ := by
    unfold State.beginStreamFrame
    dsimp only
    split
    · exact h.1
    · exact h.onLink l _
  endStream _ l h _ := h.onLink l _
  powerLoss _ _ h _ := h.1.frame ⟨rfl, rfl, rfl, rfl, rfl, rfl, rfl⟩

end Sys2Proof.Machine

namespace Sys2Proof.Proofs

open Sys2Proof.Machine

/-- Settles O59, by `State.fieldKept_ledByEvents`: how full the slot is follows the next strobe. -/
theorem everyStepKeepsTheFieldSound : Obligations.EveryStepKeepsTheFieldSound :=
  fun _ _ hfield hclock hstep => State.fieldKept_ledByEvents.step
    (fun _ _ h => ⟨h.1.frame ⟨rfl, rfl, rfl, rfl, rfl, rfl, rfl⟩, ⟨h.2.epoch, h.2.disc, h.2.window⟩⟩)
    ⟨hfield, hclock⟩ hstep

end Sys2Proof.Proofs
end

section
/-! SUPPORT. Calibration, edit, lock and store writes (R71, R108, R112 to R120, R123) along every event. -/

namespace Sys2Proof.Machine

/-! ## Values within their ranges (R71, R109 to R111) -/

theorem within_iff {limit v : Int} : within limit v = true ↔ -limit ≤ v ∧ v ≤ limit := decide_eq_true_iff

/-- What R71 asks of a calibration, row by row. -/
theorem CalSet.inRange_iff (c : CalSet) :
    c.inRange = true ↔ c.table.x.termsInRange = true ∧ c.table.y.termsInRange = true ∧ c.table.z.termsInRange = true
      ∧ c.table.osc.oscInRange = true ∧ PerAxis.allWithin biasLimit c.bias = true ∧ c.h ≤ holdoverLimit := by
  simp only [CalSet.inRange, Bool.and_eq_true, decide_eq_true_eq, and_assoc]

theorem PerAxis.allWithin_iff {limit : Int} {p : PerAxis Int} :
    PerAxis.allWithin limit p = true ↔ ∀ a, -limit ≤ p.get a ∧ p.get a ≤ limit := by
  simp only [PerAxis.allWithin, Bool.and_eq_true, within_iff]
  refine ⟨fun ⟨⟨hx, hy⟩, hz⟩ a => ?_, fun h => ⟨⟨h .X, h .Y⟩, h .Z⟩⟩
  cases a
  · exact hx
  · exact hy
  · exact hz

/-- A list of knots all of which pass a test passes it with one knot replaced by one that passes. -/
theorem Row.all_setKnot {test : Knot → Bool} {r : Row} (h : r.knots.toList.all test = true) (k : Nat) {v : Knot}
    (hv : test v = true) : (r.setKnot k v).knots.toList.all test = true := by
  rw [List.all_eq_true] at h ⊢
  intro q hq
  have hq' : q ∈ r.knots.toList.set k v := by simpa [Row.setKnot] using hq
  rcases List.mem_or_eq_of_mem_set hq' with hold | rfl
  · exact h q hold
  · exact hv

theorem Row.termsInRange_setKnot {r : Row} (h : r.termsInRange = true) (k : Nat) {g o : Int}
    (hv : within termLimit g = true ∧ within termLimit o = true) : (r.setKnot k ⟨g, o⟩).termsInRange = true :=
  Row.all_setKnot h k (Bool.and_eq_true_iff.mpr hv)

theorem Row.oscInRange_setKnot {r : Row} (h : r.oscInRange = true) (k : Nat) {g o : Int}
    (hv : g = 0 ∧ within termLimit o = true) : (r.setKnot k ⟨g, o⟩).oscInRange = true :=
  Row.all_setKnot h k (Bool.and_eq_true_iff.mpr ⟨decide_eq_true hv.1, hv.2⟩)

/-- A table whose one row is replaced by one with knots in range. -/
theorem CalSet.inRange_setRow {c : CalSet} (h : c.inRange = true) (row : RowName) {r : Row}
    (hr : (row ≠ .OSC → (c.table.row row).termsInRange = true → r.termsInRange = true)
      ∧ (row = .OSC → (c.table.row row).oscInRange = true → r.oscInRange = true)) :
    CalSet.inRange { c with table := c.table.setRow row r } = true := by
  obtain ⟨hx, hy, hz, hosc, hrest⟩ := c.inRange_iff.mp h
  rw [CalSet.inRange_iff]
  cases row
  · exact ⟨hr.1 (by decide) hx, hy, hz, hosc, hrest⟩
  · exact ⟨hx, hr.1 (by decide) hy, hz, hosc, hrest⟩
  · exact ⟨hx, hy, hr.1 (by decide) hz, hosc, hrest⟩
  · exact ⟨hx, hy, hz, hr.2 rfl hosc, hrest⟩

/-- WRITE KNOT's checks are those of R71 (R109). -/
theorem CalSet.writeKnot_inRange {c c' : CalSet} {p : List Byte} (h : c.inRange = true) (hw : c.writeKnot p = some c') :
    c'.inRange = true := by
  unfold CalSet.writeKnot at hw
  dsimp only at hw
  split at hw
  · cases hw
  · next row _ =>
    obtain ⟨hcheck, hc⟩ := Option.ite_none_right_eq_some.mp hw
    cases hc
    simp only [Bool.and_eq_true, decide_eq_true_eq, knotAllowed, Bool.or_eq_true, Bool.not_eq_true',
      decide_eq_false_iff_not] at hcheck
    obtain ⟨-, ⟨hg, ho⟩, hosc⟩ := hcheck
    exact CalSet.inRange_setRow h row ⟨fun _ hr => Row.termsInRange_setKnot hr _ ⟨hg, ho⟩,
      fun he hr => Row.oscInRange_setKnot hr _ ⟨hosc.resolve_left (not_not_intro he), ho⟩⟩

theorem CalSet.writeBand_inRange {c c' : CalSet} {p : List Byte} (h : c.inRange = true) (hw : c.writeBand p = some c') :
    c'.inRange = true := by
  unfold CalSet.writeBand at hw
  dsimp only at hw
  split at hw
  · next row _ _ _ =>
    obtain ⟨-, hc⟩ := Option.ite_none_right_eq_some.mp hw
    cases hc
    exact CalSet.inRange_setRow h row ⟨fun _ hr => hr, fun _ hr => hr⟩
  · cases hw
  · cases hw

theorem CalSet.writeBias_inRange {c c' : CalSet} {p : List Byte} (h : c.inRange = true) (hw : c.writeBias p = some c') :
    c'.inRange = true := by
  unfold CalSet.writeBias at hw
  dsimp only at hw
  split at hw
  · cases hw
  · next a _ =>
    obtain ⟨hv, hc⟩ := Option.ite_none_right_eq_some.mp hw
    cases hc
    obtain ⟨hx, hy, hz, hosc, hbias, hrate⟩ := c.inRange_iff.mp h
    refine (CalSet.inRange_iff _).mpr ⟨hx, hy, hz, hosc, PerAxis.allWithin_iff.mpr fun b => ?_, hrate⟩
    by_cases hb : b = a
    · subst hb
      dsimp only
      rw [PerAxis.get_modify_same]
      exact within_iff.mp hv
    · dsimp only
      rw [PerAxis.get_modify_other _ hb]
      exact PerAxis.allWithin_iff.mp hbias b

theorem CalSet.writeHoldover_inRange {c c' : CalSet} {p : List Byte} (h : c.inRange = true)
    (hw : c.writeHoldover p = some c') : c'.inRange = true := by
  obtain ⟨hv, hc⟩ := Option.ite_none_right_eq_some.mp hw
  cases hc
  obtain ⟨hx, hy, hz, hosc, hbias, -⟩ := c.inRange_iff.mp h
  exact (CalSet.inRange_iff _).mpr ⟨hx, hy, hz, hosc, hbias, hv⟩

/-- What a reset loads lies within its ranges, whatever the image (R71, R121). -/
theorem StoreImage.loaded_inRange (i : StoreImage) :
    i.loaded.cal.inRange = true ∧ PerAxis.allWithin baselineLimit i.loaded.baseline = true := by
  unfold StoreImage.loaded
  split
  · next h =>
    simp only [Bool.and_eq_true, StoreImage.inRange] at h
    exact ⟨h.2.1.1, h.2.2⟩
  · decide

/-! ## The calibration block under time, edit and store writes -/

/-- Calibration, store and reset request are the same in both states. -/
structure State.CalFrame (u s : State) : Prop where
  cal : u.cal = s.cal
  store : u.store = s.store
  resetWaiting : u.resetWaiting = s.resetWaiting

theorem State.CalFrame.trans {a b c : State} (h : a.CalFrame b) (g : b.CalFrame c) : a.CalFrame c :=
  ⟨h.cal.trans g.cal, h.store.trans g.store, h.resetWaiting.trans g.resetWaiting⟩

theorem State.CalFrame.onLink (s : State) (l : Link) (f : LinkState → LinkState) : (s.onLink l f).CalFrame s := ⟨rfl, rfl, rfl⟩

section

variable {u s : State} (h : s.CalSound)

include h

theorem State.CalSound.frame (hf : u.CalFrame s) : u.CalSound := by
  obtain ⟨hcal, hstore, hreset⟩ := hf
  exact ⟨hcal ▸ h.activeInRange, hcal ▸ h.shadowInRange, hcal ▸ h.baselineInRange, hcal ▸ h.lockedNoEdit,
    hcal ▸ h.idleBound, by rw [hcal, hstore]; exact h.committingWrites, hstore ▸ h.oneCommit,
    by rw [hstore, hreset]; exact h.waitsFor, hstore ▸ h.writeBound⟩

/-- Another edit in neither NONE nor COMMITTING under a lock, COMMITTING exactly where the edit before it was. -/
theorem State.CalSound.withEdit {e : Edit} (hshadow : ∀ sh, e.shadow = some sh → sh.inRange = true)
    (hlock : s.cal.lock = true → e = .none) (hidle : ∀ h sh idle, e = .editing h sh idle → idle ≤ 1200000000)
    (hcommitting : e.committingNow = s.cal.edit.committingNow) : (s.setEdit e).CalSound :=
  { h with
    shadowInRange := hshadow
    lockedNoEdit := hlock
    idleBound := hidle
    committingWrites := hcommitting.trans h.committingWrites }

/-- The edit ends outside COMMITTING. -/
theorem State.CalSound.endEdit (hcommitting : s.cal.edit.committingNow = false) : (s.setEdit .none).CalSound :=
  h.withEdit (fun _ hsh => by cases hsh) (fun _ => rfl) (fun _ _ _ he => by cases he) hcommitting.symm

/-- The holder's shadow and idle timer are set, outside COMMITTING and without a lock. -/
theorem State.CalSound.editing {l : Link} {sh : CalSet} (hsh : sh.inRange = true) (hlock : s.cal.lock = false)
    (hcommitting : s.cal.edit.committingNow = false) : (s.setEdit (.editing l sh idleTicks)).CalSound :=
  h.withEdit (fun _ hs => by cases hs; exact hsh) (fun hl => by simp [hlock] at hl)
    (fun _ _ _ he => by cases he; exact Nat.le_refl _) hcommitting.symm

/-- A link that holds the edit finds no lock set (R117). -/
theorem State.CalSound.unlocked (hedit : s.cal.edit ≠ .none) : s.cal.lock = false :=
  Bool.eq_false_iff.mpr fun hl => hedit (h.lockedNoEdit hl)

/-- Outside COMMITTING no commit write waits or is in flight. -/
theorem State.CalSound.noCommit (hcommitting : s.cal.edit.committingNow = false) :
    s.store.commitWaiting = false ∧ s.store.writesCommit = false := by
  have hwrites := h.committingWrites
  rw [hcommitting] at hwrites
  exact Bool.or_eq_false_iff.mp hwrites.symm

end

theorem Store.writesCommit_of_none {st : Store} (hnone : st.inFlight = none) : st.writesCommit = false := by
  unfold Store.writesCommit
  rw [hnone]

/-- Time takes an edit to an edit with the same shadow (R108). -/
theorem Edit.elapse_cases (w : Nat) (e : Edit) :
    (e.elapse w).shadow = e.shadow ∧ (e.elapse w).committingNow = e.committingNow ∧ (e.elapse w = .none ↔ e = .none)
      ∧ ∀ h sh idle, e.elapse w = .editing h sh idle → ∃ idle', e = .editing h sh idle' ∧ idle ≤ idle' := by
  cases e with
  | none => exact ⟨rfl, rfl, Iff.rfl, fun _ _ _ he => by cases he⟩
  | editing h sh idle =>
    exact ⟨rfl, rfl, by simp [Edit.elapse], fun _ _ _ he => by cases he; exact ⟨idle, rfl, Nat.sub_le _ _⟩⟩
  | committing h sh b => exact ⟨rfl, rfl, by simp [Edit.elapse], fun _ _ _ he => by cases he⟩

/-- No time passes beyond the latest end of a write (R119). -/
theorem State.CalSound.advance {s : State} (h : s.CalSound) {w : Nat} (hw : s.mayWait w) : (s.advance w).CalSound := by
  obtain ⟨hshadow, hcommitting, hnone, hidle⟩ := s.cal.edit.elapse_cases w
  have hwrites : Store.writesCommit { s.store with inFlight := s.store.inFlight.map (StoreWrite.elapse w) }
      = s.store.writesCommit := by
    unfold Store.writesCommit
    cases s.store.inFlight <;> rfl
  unfold State.advance
  split
  · exact h
  · exact
      { h with
        shadowInRange := fun sh hsh => h.shadowInRange sh (hshadow ▸ hsh)
        lockedNoEdit := fun hl => hnone.mpr (h.lockedNoEdit hl)
        idleBound := fun l sh idle he => by
          obtain ⟨idle', he', hle⟩ := hidle l sh idle he
          exact Nat.le_trans hle (h.idleBound l sh idle' he')
        committingWrites := by
          dsimp only
          rw [hcommitting, hwrites]
          exact h.committingWrites
        oneCommit := by
          dsimp only
          rw [hwrites]
          exact h.oneCommit
        waitsFor := fun hf hwaits => h.waitsFor (Option.map_eq_none_iff.mp hf) hwaits
        writeBound := fun wr hwr => by
          obtain ⟨x, hx, rfl⟩ := Option.map_eq_some_iff.mp hwr
          have hdue : w ≤ 600000 - x.elapsed := hw.le_due (by simp [State.dues, hx, writeMaxTicks])
          have hbound := h.writeBound x hx
          simp only [StoreWrite.elapse]
          omega }

/-! ## Requests for a write, and the choice of the next one -/

/-- A requested baseline write starts, waits or is absorbed (R118, R119). -/
theorem State.CalSound.requestBaseline {s : State} (h : s.CalSound) : (s.requestWrite .baseline).CalSound := by
  by_cases hf : s.store.inFlight = none ∧ s.resetWaiting = false
  · have hno := Store.writesCommit_of_none hf.1
    rw [State.requestWrite_starts s .baseline hf.1 hf.2]
    exact
      { h with
        committingWrites := h.committingWrites.trans (congrArg _ hno)
        oneCommit := by simp [State.startWrite, Store.writesCommit]
        waitsFor := fun hnone => by cases hnone
        writeBound := fun wr hwr => by cases hwr; exact Nat.zero_le _ }
  · have hwaits : s.store.inFlight ≠ none ∨ s.resetWaiting = true := by
      rcases Decidable.not_and_iff_or_not.mp hf with h1 | h1
      · exact .inl h1
      · exact .inr (by simpa using h1)
    rw [(s.requestWrite_waits hwaits).2]
    exact { h with waitsFor := fun hnone _ => hwaits.resolve_left (not_not_intro hnone) }

/-- COMMIT of the holder: COMMITTING, with its write in flight or waiting (R112). -/
theorem State.CalSound.requestCommit {s : State} (h : s.CalSound) {l : Link} {sh : CalSet}
    (hsh : sh.inRange = true) (hlock : s.cal.lock = false) (hcommitting : s.cal.edit.committingNow = false) :
    ((s.setEdit (.committing l sh false)).requestWrite .commit).CalSound := by
  obtain ⟨hwaiting, hwrites⟩ := h.noCommit hcommitting
  have hshadow : ∀ sh', (Edit.committing l sh false).shadow = some sh' → sh'.inRange = true := fun _ hs => by
    cases hs; exact hsh
  have hlocked : s.cal.lock = true → Edit.committing l sh false = .none := fun hl => by simp [hlock] at hl
  have hidle : ∀ h' sh' idle, Edit.committing l sh false = .editing h' sh' idle → idle ≤ 1200000000 := fun _ _ _ he => by
    cases he
  by_cases hf : s.store.inFlight = none ∧ s.resetWaiting = false
  · rw [State.requestWrite_starts (s.setEdit (.committing l sh false)) .commit hf.1 hf.2]
    exact
      { h with
        shadowInRange := hshadow
        lockedNoEdit := hlocked
        idleBound := hidle
        committingWrites := by simp [State.startWrite, Edit.committingNow, Store.writesCommit]
        oneCommit := by simp [State.startWrite, hwaiting]
        waitsFor := fun hnone => by cases hnone
        writeBound := fun wr hwr => by cases hwr; exact Nat.zero_le _ }
  · have hwaits : s.store.inFlight ≠ none ∨ s.resetWaiting = true := by
      rcases Decidable.not_and_iff_or_not.mp hf with h1 | h1
      · exact .inl h1
      · exact .inr (by simpa using h1)
    rw [((s.setEdit (.committing l sh false)).requestWrite_waits hwaits).1]
    exact
      { h with
        shadowInRange := hshadow
        lockedNoEdit := hlocked
        idleBound := hidle
        committingWrites := rfl
        oneCommit := hwrites
        waitsFor := fun hnone _ => hwaits.resolve_left (not_not_intro hnone) }

/-- With nothing in flight the next write is chosen, and then none waits without a reset (R120, R123): what the state before
the choice lacks of its relations is `waitsFor` alone. -/
theorem State.CalSound.chooseWrite {s : State} (hnone : s.store.inFlight = none)
    (h : State.CalSound { s with resetWaiting := true }) : s.chooseWrite.CalSound := by
  have hno : s.store.writesCommit = false := Store.writesCommit_of_none hnone
  obtain ⟨hreset, hcommit, hbaseline, hidle⟩ := s.chooseWrite_cases
  cases hr : s.resetWaiting with
  | true =>
    rw [hreset hr]
    exact h.frame ⟨rfl, rfl, hr⟩
  | false =>
    cases hc : s.store.commitWaiting with
    | true =>
      rw [hcommit hr hc]
      exact
        { h with
          committingWrites := by
            refine h.committingWrites.trans ?_
            simp [hc, State.startWrite, Store.writesCommit]
          oneCommit := rfl
          waitsFor := fun hf => by cases hf
          writeBound := fun wr hwr => by cases hwr; exact Nat.zero_le _ }
    | false =>
      cases hb : s.store.baselinePending with
      | true =>
        rw [hbaseline hr hc hb]
        exact
          { h with
            committingWrites := h.committingWrites.trans (congrArg _ hno)
            oneCommit := by simp [State.startWrite, Store.writesCommit]
            waitsFor := fun hf => by cases hf
            writeBound := fun wr hwr => by cases hwr; exact Nat.zero_le _ }
      | false =>
        rw [hidle hr hc hb]
        exact { h with waitsFor := fun _ hw => by simp [hc, hb] at hw }

/-! ## The end of a store write -/

/-- The write in flight is over, with its outcome in the image and in STORE-STALE (R119, R120). -/
def State.writeDone (s : State) (w : StoreWrite) (success : Bool) : State :=
  { s with
    store := { s.store with
      inFlight := none
      image := if success then ⟨w.contents, true, true⟩ else s.store.image }
    cal := { s.cal with storeStale := !success } }

theorem State.endWrite_baseline {s : State} {w : StoreWrite} (success : Bool) (hk : w.kind = .baseline) :
    s.endWrite w success = (s.writeDone w success).chooseWrite := by
  unfold State.endWrite
  rw [hk]
  cases success <;> rfl

theorem State.endWrite_commit_success {s : State} {w : StoreWrite} (hk : w.kind = .commit) :
    s.endWrite w true = ((s.writeDone w true).commitSuccess w.contents.version).chooseWrite := by
  unfold State.endWrite
  rw [hk]
  rfl

theorem State.endWrite_commit_fault {s : State} {w : StoreWrite} (hk : w.kind = .commit) :
    s.endWrite w false = (s.writeDone w false).commitFault.chooseWrite := by
  unfold State.endWrite
  rw [hk]
  rfl

theorem State.commitSuccess_of_committing {s : State} {l : Link} {sh : CalSet} {b : Bool} (v : Half)
    (he : s.cal.edit = .committing l sh b) :
    s.commitSuccess v =
      (let u := State.raiseAll { s with cal := { s.cal with
          active := sh, version := v, configDefault := false, edit := .none } } (.calib v)
       if b then u else u.onLink l (LinkState.answerCommit .ok v)) := by
  unfold State.commitSuccess
  rw [he]

theorem State.commitFault_of_committing {s : State} {l : Link} {sh : CalSet} {b : Bool}
    (he : s.cal.edit = .committing l sh b) :
    s.commitFault =
      (if b then { s with cal := { s.cal with edit := .none } }
       else State.onLink { s with cal := { s.cal with edit := .editing l sh idleTicks } } l
         (LinkState.answerCommit .storeFault s.cal.version)) := by
  unfold State.commitFault
  rw [he]

/-- The end of a write keeps the relations (R113 to R116, R120). -/
theorem State.CalSound.endWrite {s : State} (h : s.CalSound) {w : StoreWrite} (hw : s.store.inFlight = some w)
    (success : Bool) : (s.endWrite w success).CalSound := by
  have hwrites : s.store.writesCommit = decide (w.kind = .commit) := by
    unfold Store.writesCommit
    rw [hw]
  cases hk : w.kind with
  | baseline =>
    rw [State.endWrite_baseline success hk]
    refine State.CalSound.chooseWrite rfl ?_
    exact
      { h with
        committingWrites := h.committingWrites.trans (by rw [hwrites, hk]; rfl)
        oneCommit := Bool.and_false _
        waitsFor := fun _ _ => rfl
        writeBound := fun _ hf => by cases hf }
  | commit =>
    rw [hk] at hwrites
    have hwaiting : s.store.commitWaiting = false := by
      have hone := h.oneCommit
      rw [hwrites] at hone
      simpa using hone
    have hnow := h.committingWrites
    rw [hwrites, hwaiting] at hnow
    cases he : s.cal.edit with
    | none => rw [he] at hnow; cases hnow
    | editing l sh idle => rw [he] at hnow; cases hnow
    | committing l sh b =>
      have hsh : sh.inRange = true := h.shadowInRange sh (by rw [he]; rfl)
      have hlock : s.cal.lock = false := h.unlocked (by rw [he]; simp)
      have hdone : (s.writeDone w success).cal.edit = .committing l sh b := he
      cases success with
      | true =>
        rw [State.endWrite_commit_success hk, State.commitSuccess_of_committing _ hdone]
        have hends : State.CalSound { s.writeDone w true with
            cal := { (s.writeDone w true).cal with
              active := sh, version := w.contents.version, configDefault := false, edit := .none }
            resetWaiting := true } :=
          { h with
            activeInRange := hsh
            shadowInRange := fun _ hs => by cases hs
            lockedNoEdit := fun _ => rfl
            idleBound := fun _ _ _ hs => by cases hs
            committingWrites := by simp [State.writeDone, Edit.committingNow, Store.writesCommit, hwaiting]
            oneCommit := Bool.and_false _
            waitsFor := fun _ _ => rfl
            writeBound := fun _ hf => by cases hf }
        cases b <;> exact State.CalSound.chooseWrite rfl (hends.frame ⟨rfl, rfl, rfl⟩)
      | false =>
        rw [State.endWrite_commit_fault hk, State.commitFault_of_committing hdone]
        have hends : ∀ e : Edit, (∀ sh', e.shadow = some sh' → sh'.inRange = true) → e.committingNow = false →
            (∀ h sh idle, e = .editing h sh idle → idle ≤ 1200000000) →
            State.CalSound { s.writeDone w false with
              cal := { (s.writeDone w false).cal with edit := e }
              resetWaiting := true } := fun e hshadow hcommitting hidle =>
          { h with
            shadowInRange := hshadow
            lockedNoEdit := fun hl => absurd (hlock.symm.trans hl) (by decide)
            idleBound := hidle
            committingWrites := hcommitting.trans (by simp [State.writeDone, Store.writesCommit, hwaiting])
            oneCommit := Bool.and_false _
            waitsFor := fun _ _ => rfl
            writeBound := fun _ hf => by cases hf }
        cases b with
        | true =>
          exact State.CalSound.chooseWrite rfl
            ((hends .none (fun _ hs => by cases hs) rfl (fun _ _ _ hs => by cases hs)).frame ⟨rfl, rfl, rfl⟩)
        | false =>
          exact State.CalSound.chooseWrite rfl
            ((hends (.editing l sh idleTicks) (fun _ hs => by cases hs; exact hsh) rfl
              (fun _ _ _ hs => by cases hs; exact Nat.le_refl _)).frame ⟨rfl, rfl, rfl⟩)

/-! ## Station commands -/

/-- The commands of the Calibration Unit that set its state. -/
def Kind.setsCalibration : Kind → Bool
  | .openEdit | .writeKnot | .writeBand | .writeBias | .writeHoldoverRate | .commit | .abandon | .lockCalibration
  | .readTable | .setBaseline => true
  | _ => false

/-- Every other command leaves calibration and store alone. -/
theorem State.CalFrame.takeKind (s : State) (l : Link) {k : Kind} (tag : Byte) (p : List Byte)
    (hk : k.setsCalibration = false) : (s.takeKind l k tag p).CalFrame s := by
  cases k
  case readRecords =>
    simp only [State.takeKind, State.takeReadRecords]
    split <;> exact ⟨rfl, rfl, rfl⟩
  case stream =>
    simp only [State.takeKind, State.takeStream]
    split <;> exact ⟨rfl, rfl, rfl⟩
  case seek =>
    simp only [State.takeKind, State.takeSeek, State.seekNewest, State.seekNumber]
    split
    · exact ⟨rfl, rfl, rfl⟩
    · split <;> exact ⟨rfl, rfl, rfl⟩
    · exact ⟨rfl, rfl, rfl⟩
    · split <;> exact ⟨rfl, rfl, rfl⟩
    · exact ⟨rfl, rfl, rfl⟩
  case readStatus => exact ⟨rfl, rfl, rfl⟩
  case readNotice =>
    simp only [State.takeKind, State.takeReadNotice]
    split <;> exact ⟨rfl, rfl, rfl⟩
  case setNoticeMask => exact ⟨rfl, rfl, rfl⟩
  case mark => exact ⟨rfl, rfl, rfl⟩
  case readMark =>
    simp only [State.takeKind, State.takeReadMark]
    split <;> exact ⟨rfl, rfl, rfl⟩
  case setMarkLine =>
    simp only [State.takeKind, State.takeSetMarkLine]
    split <;> exact ⟨rfl, rfl, rfl⟩
  case labelNextSecond =>
    simp only [State.takeKind, State.takeLabel]
    split
    · exact ⟨rfl, rfl, rfl⟩
    · split
      · exact ⟨rfl, rfl, rfl⟩
      · split <;> exact ⟨rfl, rfl, rfl⟩
  case setOffset =>
    simp only [State.takeKind, State.takeSetOffset]
    split
    · exact ⟨rfl, rfl, rfl⟩
    · split <;> exact ⟨rfl, rfl, rfl⟩
    · exact ⟨rfl, rfl, rfl⟩
    · exact ⟨rfl, rfl, rfl⟩
  all_goals cases hk

section

variable {s : State} (h : s.CalSound) (l : Link)

include h

theorem State.CalSound.answer (st : Status) (p : List Byte) : (s.answer l st p).CalSound := h.frame ⟨rfl, rfl, rfl⟩

theorem State.CalSound.answerTable (p : List Byte) (c : CalSet) : (s.answerTable l p c).CalSound := by
  unfold State.answerTable
  split <;> exact h.answer l _ _

/-- An edit write leaves a shadow in range, if its checks do (R109 to R111). -/
theorem State.CalSound.editWrite {write : CalSet → Option CalSet}
    (hwrite : ∀ c c', c.inRange = true → write c = some c' → c'.inRange = true) : (s.editWrite l write).CalSound := by
  unfold State.editWrite
  split
  · exact h.answer l _ _
  · next holder sh idle he =>
    have hsh : sh.inRange = true := h.shadowInRange sh (by rw [he]; rfl)
    have hlock := h.unlocked (by rw [he]; simp)
    have hnow : s.cal.edit.committingNow = false := by rw [he]; rfl
    split
    · split
      · next hw => exact (h.editing (hwrite sh _ hsh hw) hlock hnow).answer l _ _
      · exact (h.editing hsh hlock hnow).answer l _ _
    · exact h.answer l _ _
  · split <;> exact h.answer l _ _

theorem State.CalSound.takeOpenEdit : (s.takeOpenEdit l).CalSound := by
  unfold State.takeOpenEdit State.answerOpen
  split
  · next he =>
    split
    · exact h.answer l _ _
    · next hl =>
      exact (h.editing h.activeInRange (by simpa using hl) (by rw [he]; rfl)).answer l _ _
  · next holder sh idle he =>
    split
    · exact (h.editing (h.shadowInRange sh (by rw [he]; rfl)) (h.unlocked (by rw [he]; simp))
        (by rw [he]; rfl)).answer l _ _
    · exact h.answer l _ _
  · exact h.answer l _ _

theorem State.CalSound.takeCommit : (s.takeCommit l).CalSound := by
  unfold State.takeCommit
  split
  · exact h.answer l _ _
  · next holder sh idle he =>
    split
    · exact h.requestCommit (h.shadowInRange sh (by rw [he]; rfl)) (h.unlocked (by rw [he]; simp)) (by rw [he]; rfl)
    · exact h.answer l _ _
  · exact h.answer l _ _

theorem State.CalSound.takeAbandon : (s.takeAbandon l).CalSound := by
  unfold State.takeAbandon
  split
  · exact h.answer l _ _
  · next he =>
    split
    · exact (h.endEdit (by rw [he]; rfl)).answer l _ _
    · exact h.answer l _ _
  · exact h.answer l _ _

theorem State.CalSound.takeLock : (s.takeLock l).CalSound := by
  unfold State.takeLock
  split
  · next he =>
    have hlocked : State.CalSound { s with cal := { s.cal with lock := true } } := { h with lockedNoEdit := fun _ => he }
    exact hlocked.answer l _ _
  · exact h.answer l _ _
  · exact h.answer l _ _

theorem State.CalSound.takeReadTable (p : List Byte) : (s.takeReadTable l p).CalSound := by
  unfold State.takeReadTable
  split
  · exact h.answerTable l _ _
  · unfold State.readShadow
    split
    · exact h.answer l _ _
    · next holder sh idle he =>
      split
      · exact (h.editing (h.shadowInRange sh (by rw [he]; rfl)) (h.unlocked (by rw [he]; simp))
          (by rw [he]; rfl)).answerTable l _ _
      · exact h.answer l _ _
    · exact h.answer l _ _
  · exact h.answer l _ _

theorem State.CalSound.takeSetBaseline (p : List Byte) : (s.takeSetBaseline l p).CalSound := by
  unfold State.takeSetBaseline
  dsimp only
  split
  · next hb =>
    have hset : ∀ links asm, State.CalSound { s with
        cal := { s.cal with baseline := ⟨s32At p 0, s32At p 4, s32At p 8⟩ }, asm := asm, links := links } :=
      fun _ _ => { h with baselineInRange := hb }
    rw [State.raiseOthers_eq]
    exact (hset _ _).requestBaseline.answer l _ _
  · exact h.answer l _ _

theorem State.CalSound.takeKind (k : Kind) (tag : Byte) (p : List Byte) : (s.takeKind l k tag p).CalSound := by
  cases hk : k.setsCalibration with
  | false => exact h.frame (.takeKind s l tag p hk)
  | true =>
    cases k
    case openEdit => exact h.takeOpenEdit l
    case writeKnot => exact h.editWrite l (fun _ _ => CalSet.writeKnot_inRange)
    case writeBand => exact h.editWrite l (fun _ _ => CalSet.writeBand_inRange)
    case writeBias => exact h.editWrite l (fun _ _ => CalSet.writeBias_inRange)
    case writeHoldoverRate => exact h.editWrite l (fun _ _ => CalSet.writeHoldover_inRange)
    case commit => exact h.takeCommit l
    case abandon => exact h.takeAbandon l
    case lockCalibration => exact h.takeLock l
    case readTable => exact h.takeReadTable l p
    case setBaseline => exact h.takeSetBaseline l p
    all_goals cases hk

theorem State.CalSound.begin (c : Command) : (s.begin l c).CalSound := by
  have hentered := h.frame (.onLink s l (LinkState.enter c))
  unfold State.begin State.execute
  split
  · exact hentered.answer l _ _
  · split
    · exact hentered.takeKind l _ _ _
    · exact hentered.answer l _ _

theorem State.CalSound.handOver (c : Command) : (s.handOver l c).CalSound := by
  unfold State.handOver
  split
  · exact h.begin l c
  · exact h.frame (.onLink s l _)

theorem State.CalSound.endReply : (s.endReply l).CalSound := by
  unfold State.endReply
  split
  · unfold State.leave
    split
    · exact h.frame ⟨rfl, rfl, rfl⟩
    · exact (h.frame ((CalFrame.onLink _ l _).trans (.onLink s l _))).begin l _
  · exact h.frame (.onLink s l _)
  · exact h
  · exact h
  · exact h

/-- A break abandons an EDITING edit held through its link; COMMITTING goes on (R116). -/
theorem State.CalSound.startBreak : (s.startBreak l).CalSound := by
  have hbroken : (s.setEdit (s.cal.edit.onBreak l)).CalSound := by
    cases he : s.cal.edit with
    | none => exact h.endEdit (by rw [he]; rfl)
    | editing holder sh idle =>
      simp only [Edit.onBreak]
      split
      · exact h.endEdit (by rw [he]; rfl)
      · exact h.frame ⟨by rw [State.setEdit_cal, ← he], rfl, rfl⟩
    | committing holder sh b =>
      exact h.withEdit (fun sh' hs => h.shadowInRange sh' (by rw [he]; exact hs))
        (fun hl => absurd (h.lockedNoEdit hl) (by rw [he]; simp)) (fun _ _ _ hs => by cases hs) (by rw [he]; rfl)
  exact hbroken.frame ⟨rfl, rfl, rfl⟩

/-- An event of the time scale sets the OSC flags alone (R78). -/
theorem State.CalSound.scale {u : State} (hf : u.ScaleFrame s) : u.CalSound := by
  have hosc : ∀ v c, State.CalSound { s with cal := { s.cal with oscVoid := v, oscClamp := c } } := fun _ _ => { h with }
  exact (hosc _ _).frame ⟨hf.cal, hf.store, hf.resetWaiting⟩

end

/-! ## The invariant -/

/-- What a reset gives the Calibration Unit and the store (Table 6-5). -/
theorem State.CalSound.atReset (s : State) (ring : Ring) (links : PerLink LinkState) (samples : Samples) :
    (s.resetBlocks ring links samples).CalSound where
  activeInRange := s.store.image.loaded_inRange.1
  shadowInRange _ hs := by cases hs
  baselineInRange := s.store.image.loaded_inRange.2
  lockedNoEdit _ := rfl
  idleBound _ _ _ he := by cases he
  committingWrites := rfl
  oneCommit := rfl
  waitsFor _ hw := by rcases hw with hw | hw <;> cases hw
  writeBound _ hf := by cases hf

/-- The calibration invariant holds while power is applied. -/
def State.CalKept (s : State) : Prop := s.powered = true → s.CalSound

/-- An event of one link alone. -/
theorem State.CalKept.onLink {s : State} (h : s.CalKept) (l : Link) (f : LinkState → LinkState) :
    (s.onLink l f).CalKept := fun hp => (h hp).frame (.onLink s l f)

/-- Every event keeps calibration, edit, lock and store writes in their relations. -/
theorem State.calKept_ledByEvents : LedByEvents State.CalKept State.CalKept where
  stay _ h := h
  time s w h hw _ := (h hw.1).advance hw
  powerOn s _ _ := .atReset s _ _ _
  warm s _ _ _ _ := .atReset s _ _ _
  resetRequest _ h hp _ := { h hp with waitsFor := fun _ _ => rfl }
  boundary s sn h hp _ _ := (h hp).scale (.boundary s false sn)
  strobe s k codeX codeY codeZ d h hp _ _ _ := by
    have hf := s.strobeWork_frame k codeX codeY codeZ d
    exact (h hp).frame ⟨hf.cal, hf.store, hf.resetWaiting⟩
  midpoint s h hp _ _ _ := (h hp).scale (.closeWindow s)
  pps s h hp _ := (h hp).scale (.ppsRecognised s)
  conversion s ch r h hp _ _ := by
    unfold State.takeConversion
    dsimp only
    split <;> cases ch <;> exact (h hp).frame ⟨rfl, rfl, rfl⟩
  lineMark _ h hp _ := (h hp).frame ⟨rfl, rfl, rfl⟩
  expire s l sh h hp he _ := ((h hp).endEdit (by rw [he]; rfl)).frame ⟨rfl, rfl, rfl⟩
  endWrite _ _ success h hp hw _ := (h hp).endWrite hw success
  ready _ l _ h _ := h.onLink l _
  framingError _ l h _ _ := h.onLink l _
  timeOut _ l h _ := h.onLink l _
  dropBad _ l h _ := h.onLink l _
  takeByte _ l _ _ h _ _ := h.onLink l _
  holdByte _ l h _ _ := h.onLink l _
  acceptFrame s l _ c h hp _ _ := ((h hp).frame (.onLink s l _)).handOver l c
  handOver _ l c h hp _ := (h hp).handOver l c
  startBreak _ l h hp _ := (h hp).startBreak l
  endBreak _ l h _ _ := h.onLink l _
  beginReply _ l h _ _ := h.onLink l _
  endReply _ l h hp _ := (h hp).endReply l
  beginTransfer s l h _ _ := by
    unfold State.beginTransferFrame
    dsimp only
    split
    · exact h
    · exact h.onLink l _
  endTransfer _ l h _ := h.onLink l _
  beginStream s l h _ _ := by
    unfold State.beginStreamFrame
    dsimp only
    split
    · exact h
    · exact h.onLink l _
  endStream _ l h _ := h.onLink l _
  powerLoss _ _ _ _ hp := by cases hp

end Sys2Proof.Machine

namespace Sys2Proof.Proofs

open Sys2Proof.Machine

/-- Settles O57, by `State.calKept_ledByEvents`. -/
theorem everyStepKeepsTheCalibrationSound : Obligations.EveryStepKeepsTheCalibrationSound :=
  fun _ _ hcal hstep => State.calKept_ledByEvents.step (fun _ _ h hp => (h hp).frame ⟨rfl, rfl, rfl⟩) hcal hstep

end Sys2Proof.Proofs
end

section
/-! SUPPORT. Each link under every event (Tables 8-1, 8-2, 9-1; R152, R160, R165, R173, R180): what the receiver, the slots, the
line, the counters, the notices and the latch keep of their shape. -/

namespace Sys2Proof.Machine

/-! ## The receiver (Table 8-2) -/

section

variable {r : Receiver} (h : r.Sound)

include h

theorem Receiver.Sound.header (hs : r.state = .header) :
    ∃ b, r.partialFrame = some b ∧ b.length < 3 ∧ lenOf b ≤ 64 ∧ r.crc = crcOf b ∧ r.gap ≤ gapTicks := by
  unfold Receiver.Sound at h
  rw [hs] at h
  cases hp : r.partialFrame with
  | none => rw [hp] at h; exact h.elim
  | some b => rw [hp] at h; exact ⟨b, rfl, h⟩

theorem Receiver.Sound.payload (hs : r.state = .payload) :
    ∃ b, r.partialFrame = some b ∧ 3 ≤ b.length ∧ b.length < 3 + lenOf b ∧ lenOf b ≤ 64 ∧ r.crc = crcOf b
      ∧ r.gap ≤ gapTicks := by
  unfold Receiver.Sound at h
  rw [hs] at h
  cases hp : r.partialFrame with
  | none => rw [hp] at h; exact h.elim
  | some b => rw [hp] at h; exact ⟨b, rfl, h⟩

theorem Receiver.Sound.check (hs : r.state = .check) :
    ∃ b, r.partialFrame = some b ∧ 3 + lenOf b ≤ b.length ∧ b.length < 5 + lenOf b ∧ lenOf b ≤ 64
      ∧ r.crc = crcOf (b.take (3 + lenOf b)) ∧ r.gap ≤ gapTicks := by
  unfold Receiver.Sound at h
  rw [hs] at h
  cases hp : r.partialFrame with
  | none => rw [hp] at h; exact h.elim
  | some b => rw [hp] at h; exact ⟨b, rfl, h⟩

/-- Outside a frame there is no partial frame. -/
theorem Receiver.Sound.noFrame (hs : r.inFrame = false) : r.partialFrame = none := by
  cases hp : r.partialFrame with
  | none => rfl
  | some b =>
    unfold Receiver.Sound at h
    unfold Receiver.inFrame at hs
    cases hstate : r.state <;> simp [hstate, hp] at h hs

end

/-- A receiver outside a frame, without a partial frame. -/
theorem Receiver.sound_of_noFrame {r : Receiver} (hs : r.inFrame = false) (hp : r.partialFrame = none) : r.Sound := by
  unfold Receiver.inFrame at hs
  unfold Receiver.Sound
  rw [hp]
  cases hstate : r.state <;> simp [hstate] at hs ⊢

theorem Receiver.sound_of_header {r : Receiver} {b : List Byte} (hs : r.state = .header) (hp : r.partialFrame = some b)
    (h : b.length < 3 ∧ lenOf b ≤ 64 ∧ r.crc = crcOf b ∧ r.gap ≤ gapTicks) : r.Sound := by
  unfold Receiver.Sound
  rw [hs, hp]
  exact h

theorem Receiver.sound_of_payload {r : Receiver} {b : List Byte} (hs : r.state = .payload) (hp : r.partialFrame = some b)
    (h : 3 ≤ b.length ∧ b.length < 3 + lenOf b ∧ lenOf b ≤ 64 ∧ r.crc = crcOf b ∧ r.gap ≤ gapTicks) : r.Sound := by
  unfold Receiver.Sound
  rw [hs, hp]
  exact h

theorem Receiver.sound_of_check {r : Receiver} {b : List Byte} (hs : r.state = .check) (hp : r.partialFrame = some b)
    (h : 3 + lenOf b ≤ b.length ∧ b.length < 5 + lenOf b ∧ lenOf b ≤ 64 ∧ r.crc = crcOf (b.take (3 + lenOf b))
      ∧ r.gap ≤ gapTicks) : r.Sound := by
  unfold Receiver.Sound
  rw [hs, hp]
  exact h

theorem lenOf_append {b : List Byte} (hb : b ≠ []) (x : Byte) : lenOf (b ++ [x]) = lenOf b := by
  cases b with
  | nil => exact absurd rfl hb
  | cons y rest => rfl

theorem crcOf_append (b : List Byte) (x : Byte) : crcOf (b ++ [x]) = crcByte (crcOf b) x := by
  unfold crcOf
  rw [List.foldl_append]
  rfl

theorem Receiver.toHunt_sound (r : Receiver) : r.toHunt.Sound := Receiver.sound_of_noFrame rfl rfl

/-- A byte in HEADER that does not drop the frame (R147). -/
theorem Receiver.Sound.takeHeader {r r' : Receiver} (h : r.Sound) (hs : r.state = .header) {x : Byte}
    (hr : r.takeHeader x = .goesOn r') : r'.Sound := by
  obtain ⟨b, hp, hlen, hmax, hcrc, -⟩ := h.header hs
  unfold Receiver.takeHeader at hr
  simp only [hp, Option.getD_some] at hr
  split at hr
  · cases hr
  · next hkeep =>
    obtain rfl := RxResult.goesOn.inj hr
    have hmax' : lenOf (b ++ [x]) ≤ 64 := by
      cases b with
      | nil => exact Nat.not_lt.mp (fun hbig => hkeep ⟨rfl, hbig⟩)
      | cons y rest => rw [lenOf_append (List.cons_ne_nil _ _)]; exact hmax
    have hcrc' : crcByte r.crc x = crcOf (b ++ [x]) := by rw [crcOf_append, hcrc]
    by_cases hshort : (b ++ [x]).length < 3
    · exact Receiver.sound_of_header (if_pos hshort) rfl ⟨hshort, hmax', hcrc', Nat.zero_le _⟩
    · have hthree : (b ++ [x]).length = 3 := by simp only [List.length_append, List.length_singleton] at hshort ⊢; omega
      by_cases hzero : lenOf (b ++ [x]) = 0
      · refine Receiver.sound_of_check ((if_neg hshort).trans (if_pos hzero)) rfl
          ⟨by omega, by omega, hmax', ?_, Nat.zero_le _⟩
        rw [List.take_of_length_le (by omega)]
        exact hcrc'
      · exact Receiver.sound_of_payload ((if_neg hshort).trans (if_neg hzero)) rfl
          ⟨by omega, by omega, hmax', hcrc', Nat.zero_le _⟩

/-- A byte in PAYLOAD (R148). -/
theorem Receiver.Sound.takePayload {r : Receiver} (h : r.Sound) (hs : r.state = .payload) (x : Byte) :
    (r.takePayload x).Sound := by
  obtain ⟨b, hp, hlow, hhigh, hmax, hcrc, -⟩ := h.payload hs
  have hlen : lenOf (b ++ [x]) = lenOf b := lenOf_append (List.ne_nil_of_length_pos (by omega)) x
  have hlength : (b ++ [x]).length = b.length + 1 := by simp
  have hcrc' : crcByte r.crc x = crcOf (b ++ [x]) := by rw [crcOf_append, hcrc]
  have hframe : (r.takePayload x).partialFrame = some (b ++ [x]) := by simp only [Receiver.takePayload, hp, Option.getD_some]
  have hstate : (r.takePayload x).state = if (b ++ [x]).length < 3 + lenOf (b ++ [x]) then .payload else .check := by
    simp only [Receiver.takePayload, hp, Option.getD_some]
  by_cases hmore : (b ++ [x]).length < 3 + lenOf (b ++ [x])
  · exact Receiver.sound_of_payload (hstate.trans (if_pos hmore)) hframe
      ⟨by omega, hmore, by omega, hcrc', Nat.zero_le _⟩
  · refine Receiver.sound_of_check (hstate.trans (if_neg hmore)) hframe ⟨by omega, by omega, by omega, ?_, Nat.zero_le _⟩
    rw [List.take_of_length_le (by omega)]
    exact hcrc'

/-- The first byte in CHECK (R148). -/
theorem Receiver.Sound.takeCheck {r r' : Receiver} (h : r.Sound) (hs : r.state = .check) {x : Byte}
    (hr : r.takeCheck x = .goesOn r') : r'.Sound := by
  obtain ⟨b, hp, hlow, -, hmax, hcrc, -⟩ := h.check hs
  have hlen : lenOf (b ++ [x]) = lenOf b := lenOf_append (List.ne_nil_of_length_pos (by omega)) x
  have hlength : (b ++ [x]).length = b.length + 1 := by simp
  unfold Receiver.takeCheck at hr
  simp only [hp, Option.getD_some] at hr
  split at hr
  · next hmore =>
    obtain rfl := RxResult.goesOn.inj hr
    refine Receiver.sound_of_check hs rfl ⟨by omega, by omega, by omega, ?_, Nat.zero_le _⟩
    rw [hlen, List.take_append_of_le_length hlow]
    exact hcrc
  · split at hr <;> cases hr

/-- A byte that does not end the frame keeps the receiver in the shape of Table 8-2. -/
theorem Receiver.Sound.takeByte {r r' : Receiver} (h : r.Sound) {x : Byte} (hr : r.takeByte x = .goesOn r') : r'.Sound := by
  unfold Receiver.takeByte at hr
  cases hs : r.state <;> rw [hs] at hr
  case header => exact h.takeHeader hs hr
  case check => exact h.takeCheck hs hr
  all_goals obtain rfl := RxResult.goesOn.inj hr
  case hunt =>
    have hnone := h.noFrame (by unfold Receiver.inFrame; rw [hs])
    unfold Receiver.takeHunt
    split
    · exact Receiver.sound_of_noFrame rfl hnone
    · exact h
  case sync2 =>
    have hnone := h.noFrame (by unfold Receiver.inFrame; rw [hs])
    unfold Receiver.takeSync2
    split
    · exact Receiver.sound_of_header rfl rfl ⟨by decide, by decide, rfl, Nat.zero_le _⟩
    · split
      · exact h
      · exact Receiver.sound_of_noFrame rfl hnone
  case payload => exact h.takePayload hs x
  case brk => exact h

/-- No byte leads into BREAK, and in BREAK none is taken (R151). -/
theorem Receiver.takeByte_brk {r r' : Receiver} {x : Byte} (hr : r.takeByte x = .goesOn r') (hs' : r'.state = .brk) :
    r' = r := by
  unfold Receiver.takeByte at hr
  cases hs : r.state <;> rw [hs] at hr
  case brk => exact (RxResult.goesOn.inj hr).symm
  case hunt =>
    obtain rfl := RxResult.goesOn.inj hr
    unfold Receiver.takeHunt at hs' ⊢
    split at hs'
    · cases hs'
    · next hne => rw [if_neg hne]
  case sync2 =>
    obtain rfl := RxResult.goesOn.inj hr
    unfold Receiver.takeSync2 at hs'
    split at hs'
    · cases hs'
    · split at hs'
      · rw [hs] at hs'; cases hs'
      · cases hs'
  case header =>
    unfold Receiver.takeHeader at hr
    dsimp only at hr
    split at hr
    · cases hr
    · obtain rfl := RxResult.goesOn.inj hr
      dsimp only at hs'
      split at hs'
      · cases hs'
      · split at hs' <;> cases hs'
  case payload =>
    obtain rfl := RxResult.goesOn.inj hr
    unfold Receiver.takePayload at hs'
    dsimp only at hs'
    split at hs' <;> cases hs'
  case check =>
    unfold Receiver.takeCheck at hr
    dsimp only at hr
    split at hr
    · obtain rfl := RxResult.goesOn.inj hr
      rw [show r.state = .brk from hs'] at hs
      cases hs
    · split at hr <;> cases hr

/-- The gap of a receiver within a frame grows up to the timeout (R149). -/
theorem Receiver.Sound.elapse {r : Receiver} (h : r.Sound) {n : Nat} (hgap : r.timing = true → r.gap + n ≤ gapTicks) :
    (r.elapse n).Sound := by
  have hbound : r.gap ≤ gapTicks → (r.elapse n).gap ≤ gapTicks := by
    intro hg
    unfold Receiver.elapse
    dsimp only
    split
    · next ht => exact hgap ht
    · exact hg
  cases hs : r.state
  case header =>
    obtain ⟨b, hp, hlen, hmax, hcrc, hg⟩ := h.header hs
    exact Receiver.sound_of_header hs hp ⟨hlen, hmax, hcrc, hbound hg⟩
  case payload =>
    obtain ⟨b, hp, hlow, hhigh, hmax, hcrc, hg⟩ := h.payload hs
    exact Receiver.sound_of_payload hs hp ⟨hlow, hhigh, hmax, hcrc, hbound hg⟩
  case check =>
    obtain ⟨b, hp, hlow, hhigh, hmax, hcrc, hg⟩ := h.check hs
    exact Receiver.sound_of_check hs hp ⟨hlow, hhigh, hmax, hcrc, hbound hg⟩
  all_goals
    have hout : r.inFrame = false := by unfold Receiver.inFrame; rw [hs]
    exact Receiver.sound_of_noFrame hout (h.noFrame hout)

theorem Receiver.Sound.gap_le {r : Receiver} (h : r.Sound) (hf : r.inFrame = true) : r.gap ≤ gapTicks := by
  cases hs : r.state
  case header => obtain ⟨-, -, -, -, -, hg⟩ := h.header hs; exact hg
  case payload => obtain ⟨-, -, -, -, -, -, hg⟩ := h.payload hs; exact hg
  case check => obtain ⟨-, -, -, -, -, -, hg⟩ := h.check hs; exact hg
  all_goals
    unfold Receiver.inFrame at hf
    rw [hs] at hf
    cases hf

/-! ## One link -/

/-- A new receiver state in Table 8-2. -/
theorem LinkState.Sound.setRx {k : LinkState} (h : k.Sound) {r : Receiver} (hr : r.Sound)
    (hu : r.state = .brk → r.undecided = false) : (k.setRx r).Sound :=
  { h with receiver := hr, undecided := hu }

theorem LinkState.Sound.elapse {k : LinkState} (h : k.Sound) {n : Nat}
    (hgap : k.rx.timing = true → k.rx.gap + n ≤ gapTicks) : (k.elapse n).Sound :=
  { h with receiver := h.receiver.elapse hgap, undecided := h.undecided }

/-- A notice that is not MARK; a GAP counts at least one record (R131, R173). -/
theorem LinkState.Sound.raise {k : LinkState} (h : k.Sound) {n : Notice} (hmark : ∀ src, n ≠ .mark src)
    (hgap : ∀ m, n = .gap m → 1 ≤ m) : (LinkState.raise n k).Sound := by
  refine { h with markEntry := ?_, gapDetail := ?_ }
  · cases n with
    | mark src => exact absurd rfl (hmark src)
    | _ => exact h.markEntry
  · cases n with
    | gap m =>
      intro v hv
      obtain rfl := Option.some.inj hv
      have hm := hgap m rfl
      unfold addGap max32
      omega
    | _ => exact h.gapDetail

theorem LinkState.Sound.sameButScaleNotices {k k' : LinkState} (h : k.Sound) (hk : k'.SameButScaleNotices k) : k'.Sound := by
  obtain ⟨clock, step, rfl⟩ := hk
  exact { h with markEntry := h.markEntry, gapDetail := h.gapDetail }

theorem LinkState.Sound.passRemoved {k : LinkState} (h : k.Sound) (removed : Word) : (k.passRemoved removed).Sound := by
  by_cases hc : k.cursor = removed
  · rw [LinkState.passRemoved, if_pos hc]
    have hmoved : LinkState.Sound { k with cursor := removed + 1 } := { h with }
    exact hmoved.raise (fun _ hn => by cases hn) (fun m hn => by cases hn; exact Nat.le_refl 1)
  · rw [LinkState.passRemoved_of_ne hc]
    exact h

/-- A capture reaches an empty latch with its MARK entry, and a full one counts it (R180). -/
theorem LinkState.Sound.offer {k : LinkState} (h : k.Sound) (c : Capture) : (k.offer c).Sound := by
  obtain ⟨hbad, hframing, htimeouts, hbreaks, htotal, hdisplaced, -⟩ := h.counters
  cases hl : k.latch with
  | none =>
    rw [LinkState.offer_empty c hl]
    exact { h with markEntry := rfl, ignoredZero := fun hnone => (by cases hnone), gapDetail := h.gapDetail }
  | some held =>
    rw [LinkState.offer_full c hl]
    exact
      { h with
        counters := ⟨hbad, hframing, htimeouts, hbreaks, htotal, hdisplaced, Nat.min_le_left _ _⟩
        ignoredZero := fun hnone => (by rw [show k.latch = none from hnone] at hl; cases hl) }

/-- The frame on the line, if there is one, needs nothing of the executing slot. -/
def LinkState.LineFree (k : LinkState) : Prop := ∀ k' : LinkState, k'.tx = k.tx → k'.LineSound

theorem LinkState.LineFree.of_idle {k : LinkState} (hidle : k.tx = none) : k.LineFree := by
  intro k' htx t ht
  rw [htx, hidle] at ht
  cases ht

/-- While no command is in execution, or one with neither reply nor transfer. -/
theorem LinkState.LineSound.free {k : LinkState} (h : k.LineSound)
    (hnone : ∀ e, k.executing = some e → e.reply = none ∧ e.transfer = none) : k.LineFree := by
  intro k' htx t ht
  have hline := h t (htx ▸ ht)
  cases hw : t.what with
  | reply o =>
    rw [hw] at hline
    cases o with
    | false => trivial
    | true =>
      obtain ⟨e, he, hr⟩ := hline
      rw [(hnone e he).1] at hr
      cases hr
  | transfer o q =>
    rw [hw] at hline
    cases o with
    | false => trivial
    | true =>
      obtain ⟨e, tr, he, htr, -⟩ := hline
      rw [(hnone e he).2] at htr
      cases htr
  | stream q => trivial

/-- A command enters the executing slot (R153). -/
theorem LinkState.Sound.enter {k : LinkState} (h : k.Sound) (hfree : k.LineFree) (c : Command) :
    (LinkState.enter c k).Sound :=
  { h with
    executing := fun e he t ht => by obtain rfl := Option.some.inj he; cases ht
    line := hfree _ rfl
    waitsBehind := fun he => by cases he }

/-- The executing command of a link is changed in its reply alone, which is built, and it carries no transfer. -/
theorem LinkState.Sound.setReply {k : LinkState} (h : k.Sound)
    {f : Executing → Executing} (hreply : ∀ e, k.executing = some e → (f e).reply.isSome = e.reply.isSome ∨ (f e).reply.isSome = true)
    (htransfer : ∀ e, k.executing = some e → (f e).transfer = e.transfer)
    (hkeep : ∀ e, k.executing = some e → f e = e ∨ e.transfer = none) :
    LinkState.Sound { k with executing := k.executing.map f } := by
  refine { h with executing := ?_, line := ?_, waitsBehind := fun hnone => h.waitsBehind (Option.map_eq_none_iff.mp hnone) }
  · intro e he
    obtain ⟨e₀, he₀, rfl⟩ := Option.map_eq_some_iff.mp he
    rcases hkeep e₀ he₀ with hsame | hnone
    · rw [hsame]; exact h.executing e₀ he₀
    · intro t ht
      rw [htransfer e₀ he₀, hnone] at ht
      cases ht
  · intro t ht
    have hline := h.line t ht
    cases hw : t.what with
    | reply o =>
      rw [hw] at hline
      cases o with
      | false => trivial
      | true =>
        obtain ⟨e, he, hr⟩ := hline
        refine ⟨f e, by dsimp only; rw [he]; rfl, ?_⟩
        rcases hreply e he with hs | hs
        · rw [hs]; exact hr
        · exact hs
    | transfer o q =>
      rw [hw] at hline
      cases o with
      | false => trivial
      | true =>
        obtain ⟨e, tr, he, htr, hrun⟩ := hline
        exact ⟨f e, tr, by dsimp only; rw [he]; rfl, (htransfer e he).trans htr, hrun⟩
    | stream q => trivial

/-- A reply is built for a command that carries no transfer (R153). -/
theorem LinkState.Sound.answer {k : LinkState} (h : k.Sound) (hnone : ∀ e, k.executing = some e → e.transfer = none)
    (st : Status) (p : List Byte) : (LinkState.answer st p k).Sound :=
  h.setReply (fun _ _ => .inr rfl) (fun _ _ => rfl) (fun e he => .inr (hnone e he))

/-- A COMMIT in execution carries no transfer: its KIND is not READ RECORDS' (R162). -/
theorem LinkState.Sound.answerCommit {k : LinkState} (h : k.Sound) (st : Status) (v : Half) :
    (LinkState.answerCommit st v k).Sound := by
  refine h.setReply (fun e _ => ?_) (fun e _ => ?_) (fun e he => ?_)
  · split
    · exact .inr rfl
    · exact .inl rfl
  · split <;> rfl
  · by_cases hc : isCommit e = true
    · refine .inr (Option.eq_none_iff_forall_ne_some.mpr fun t ht => ?_)
      have hkind := (h.executing e he t ht).1
      simp only [isCommit, Bool.and_eq_true, decide_eq_true_eq] at hc
      rw [hkind] at hc
      exact absurd hc.1 (by decide)
    · exact .inl (if_neg hc)

/-- A command waits behind the one in execution, and may displace another (R152). -/
theorem LinkState.Sound.wait {k : LinkState} (h : k.Sound) {e : Executing} (he : k.executing = some e) (c : Command) :
    (k.wait c).Sound := by
  obtain ⟨hbad, hframing, htimeouts, hbreaks, -, -, hignored⟩ := h.counters
  have hbehind : k.executing = none → some c = none := fun hnone => by rw [hnone] at he; cases he
  unfold LinkState.wait
  split
  · exact { h with waitsBehind := hbehind }
  · exact
      { h with
        waitsBehind := hbehind
        counters := ⟨hbad, hframing, htimeouts, hbreaks, bump_le _ _, bump_le _ _, hignored⟩ }

/-- A frame that needs nothing of the slot, or no frame. -/
theorem LinkState.Sound.setTx {k : LinkState} (h : k.Sound) {tx : Option Sending}
    (hline : LinkState.LineSound { k with tx := tx }) : LinkState.Sound { k with tx := tx } :=
  { h with line := hline }

theorem LinkState.Sound.lineIdle {k : LinkState} (h : k.Sound) : k.lineIdle.Sound :=
  h.setTx (fun _ ht => by cases ht)

theorem LinkState.Sound.setCursor {k : LinkState} (h : k.Sound) (c : Word) : LinkState.Sound { k with cursor := c } :=
  { h with }

theorem LinkState.Sound.deliver {k : LinkState} (h : k.Sound) (q : Word) : (k.deliver q).Sound := by
  unfold LinkState.deliver
  split
  · exact h.setCursor _
  · exact h

theorem LinkState.deliver_executing (k : LinkState) (q : Word) : (k.deliver q).executing = k.executing := by
  unfold LinkState.deliver
  split <;> rfl

theorem LinkState.deliver_tx (k : LinkState) (q : Word) : (k.deliver q).tx = k.tx := by
  unfold LinkState.deliver
  split <;> rfl

/-- The end test of a RUNNING transfer that may have reached its count: it ends, or goes on short of it (R162, R164, R165).
The frame on the line needs nothing of the slot. -/
theorem LinkState.Sound.endTest {k : LinkState} (h : k.Sound) (next : Word) {c : Command} {requested delivered : Nat}
    (hfree : k.LineFree)
    (hkind : c.kind = 0x10) (hone : 1 ≤ requested) (hmax : requested ≤ 16) (hcount : delivered ≤ requested) :
    (LinkState.endTest next { k with executing := some ⟨c, none, some ⟨requested, delivered, .running⟩⟩ }).Sound := by
  by_cases hdone : requested ≤ delivered ∨ k.cursor = next
  · rw [LinkState.endTest_of_done (k := { k with executing := _ }) rfl hdone]
    refine
      { h with
        executing := fun e he t ht => ?_
        line := hfree _ rfl
        waitsBehind := fun hnone => by cases hnone }
    obtain rfl := Option.some.inj he
    obtain rfl := Option.some.inj ht
    exact ⟨hkind, hone, hmax, hcount, fun hrun => (by cases hrun), fun _ => rfl⟩
  · obtain ⟨hless, hbehind⟩ := not_or.mp hdone
    rw [LinkState.endTest_of_more (k := { k with executing := _ }) (t := ⟨requested, delivered, .running⟩) rfl
      (Nat.not_le.mp hless) hbehind]
    refine
      { h with
        executing := fun e he t ht => ?_
        line := hfree _ rfl
        waitsBehind := fun hnone => by cases hnone }
    obtain rfl := Option.some.inj he
    obtain rfl := Option.some.inj ht
    exact ⟨hkind, hone, hmax, hcount, fun _ => ⟨Nat.not_le.mp hless, rfl⟩, fun hend => by cases hend⟩

end Sys2Proof.Machine
end

section
/-! SUPPORT. The links under every event: a station command at its execution, and then the list of events. -/

namespace Sys2Proof.Machine

/-- The codes of Table 8-3 spell their commands alone. -/
theorem Kind.eq_code_of_ofByte {b : Byte} {k : Kind} (h : Kind.ofByte b = some k) : b = k.code := by
  have hall : ∀ b : Byte, (Kind.ofByte b).all (fun k => decide (b = k.code)) = true := by decide
  have hb := hall b
  rw [h] at hb
  exact of_decide_eq_true hb

theorem maskBits_high (v : Half) : maskBits v &&& 0xFE00 = 0 := by
  unfold maskBits
  rw [BitVec.and_assoc]
  exact BitVec.and_zero

theorem LinkState.offer_executing (c : Capture) (k : LinkState) : (k.offer c).executing = k.executing := by
  unfold LinkState.offer
  split <;> rfl

/-- An inter-byte timeout is one of the things due. -/
theorem State.gapDue_mem_dues {s : State} {l : Link} {d : Nat} (hd : d ∈ (s.links.get l).gapDue) : d ∈ s.dues := by
  unfold State.dues
  simp only [List.mem_append]
  cases l <;> simp only [PerLink.get] at hd <;> simp only [hd, true_or, or_true]

/-! ## A command at its execution -/

/-- Every link is sound, and the command in link l's executing slot carries no transfer: as every command does when it enters
(R153). -/
def State.Taking (s : State) (l : Link) : Prop :=
  s.LinksSound ∧ ∀ e, (s.links.get l).executing = some e → e.transfer = none

namespace State.Taking

variable {s u : State} {l : Link}

theorem same (h : s.Taking l) (hl : u.links = s.links) : u.Taking l := by
  unfold State.Taking State.LinksSound
  rw [hl]
  exact h

/-- A change of one link that keeps its soundness and its executing slot. -/
theorem onLink (h : s.Taking l) (m : Link) {f : LinkState → LinkState} (hexec : ∀ k, (f k).executing = k.executing)
    (hf : ∀ k, k.Sound → (f k).Sound) : (s.onLink m f).Taking l := by
  refine ⟨State.onLink_forall LinkState.Sound s m f h.1 (hf _ (h.1 m)), ?_⟩
  by_cases hm : l = m
  · subst hm
    rw [State.onLink_get_same, hexec]
    exact h.2
  · rw [State.onLink_get_other s hm]
    exact h.2

theorem answer (h : s.Taking l) (st : Status) (p : List Byte) : (s.answer l st p).LinksSound :=
  State.onLink_forall LinkState.Sound s l _ h.1 ((h.1 l).answer h.2 st p)

theorem raiseOn (h : s.Taking l) (m : Link) {n : Notice} (hmark : ∀ src, n ≠ .mark src) (hgap : ∀ c, n = .gap c → 1 ≤ c) :
    (s.raiseOn m n).Taking l :=
  h.onLink m (fun _ => rfl) (fun _ hk => hk.raise hmark hgap)

theorem raiseAll (h : s.Taking l) {n : Notice} (hmark : ∀ src, n ≠ .mark src) (hgap : ∀ c, n = .gap c → 1 ≤ c) :
    (s.raiseAll n).Taking l := by
  refine ⟨fun m => ?_, ?_⟩
  · rw [State.raiseAll_links, PerLink.get_map]
    exact (h.1 m).raise hmark hgap
  · rw [State.raiseAll_links, PerLink.get_map]
    exact h.2

theorem raiseOthers (h : s.Taking l) {n : Notice} (hmark : ∀ src, n ≠ .mark src) (hgap : ∀ c, n = .gap c → 1 ≤ c) :
    (s.raiseOthers l n).Taking l := by
  cases l <;> exact (h.raiseOn _ hmark hgap).raiseOn _ hmark hgap

end State.Taking

section

variable {s : State} {l : Link} (h : s.Taking l)

include h

/-- An edit write answers and changes nothing else of a link. -/
theorem State.Taking.editWrite (write : CalSet → Option CalSet) : (s.editWrite l write).LinksSound := by
  unfold State.editWrite
  split
  · exact h.answer _ _
  · split
    · split <;> exact (h.same (State.setEdit_links _ _)).answer _ _
    · exact h.answer _ _
  · split <;> exact h.answer _ _

theorem State.Taking.answerTable (p : List Byte) (c : CalSet) : (s.answerTable l p c).LinksSound := by
  unfold State.answerTable
  split <;> exact h.answer _ _

theorem State.Taking.seek (p : List Byte) : (s.takeSeek l p).LinksSound := by
  have place : ∀ (c : Word) (st : Status), ((s.setCursor l c).answerSeek l st).LinksSound := fun c _ =>
    State.Taking.answer (h.onLink l (f := fun k => { k with cursor := c }) (fun _ => rfl) (fun _ hk => hk.setCursor c)) _ _
  unfold State.takeSeek
  split
  · exact place _ _
  · unfold State.seekNewest
    split <;> exact place _ _
  · exact place _ _
  · unfold State.seekNumber
    split
    · exact place _ _
    · exact place _ _
    · exact place _ _
    · exact h.answer _ _
  · exact h.answer _ _

theorem State.Taking.readNotice : (s.takeReadNotice l).LinksSound := by
  have hseen : s.seeStrobe.Taking l := h.same rfl
  unfold State.takeReadNotice
  dsimp only
  split
  · exact hseen.answer _ _
  · next n hn =>
    have hafter : ((s.links.get l).notices.afterRead n).mark = (s.links.get l).notices.mark
        ∧ ∀ v, ((s.links.get l).notices.afterRead n).gap = some v → (s.links.get l).notices.gap = some v := by
      cases n
      case gap => exact ⟨rfl, fun _ hv => by cases hv⟩
      all_goals exact ⟨rfl, fun _ hv => hv⟩
    refine State.Taking.answer ⟨State.onLink_forall LinkState.Sound s.seeStrobe l _ hseen.1 ?_, ?_⟩ _ _
    · exact
        { h.1 l with
          markEntry := hafter.1.trans (h.1 l).markEntry
          gapDetail := fun v hv => (h.1 l).gapDetail v (hafter.2 v hv) }
    · rw [State.onLink_get_same]
      exact h.2

theorem State.Taking.readMark : (s.takeReadMark l).LinksSound := by
  unfold State.takeReadMark
  dsimp only
  split
  · exact h.answer _ _
  · refine State.Taking.answer (h.onLink l
      (f := fun k => { k with latch := none, ignored := 0, notices := { k.notices with mark := none } })
      (fun _ => rfl) (fun k hk => ?_)) _ _
    obtain ⟨hbad, hframing, htimeouts, hbreaks, htotal, hdisplaced, -⟩ := hk.counters
    exact
      { hk with
        counters := ⟨hbad, hframing, htimeouts, hbreaks, htotal, hdisplaced, Nat.zero_le _⟩
        markEntry := rfl
        ignoredZero := fun _ => rfl
        gapDetail := hk.gapDetail }

theorem State.Taking.setMarkLine (p : List Byte) : (s.takeSetMarkLine l p).LinksSound := by
  have set : ∀ v, (s.onLink l (fun k => { k with markLine := v })).Taking l := fun v =>
    h.onLink l (fun _ => rfl) (fun _ hk => { hk with })
  unfold State.takeSetMarkLine
  split
  · exact (set false).answer _ _
  · exact (set true).answer _ _
  · exact h.answer _ _

theorem State.Taking.stream (tag : Byte) (p : List Byte) : (s.takeStream l tag p).LinksSound := by
  unfold State.takeStream
  split
  · exact State.Taking.answer (h.onLink l (f := fun k => { k with stream := false }) (fun _ => rfl) (fun _ hk => { hk with })) _ _
  · exact State.Taking.answer
      (h.onLink l (f := fun k => { k with stream := true, streamTag := tag }) (fun _ => rfl) (fun _ hk => { hk with })) _ _
  · exact h.answer _ _

theorem State.Taking.label (p : List Byte) : (s.takeLabel l p).LinksSound := by
  unfold State.takeLabel
  dsimp only
  split
  · exact h.answer _ _
  · split
    · exact State.Taking.answer (h.same rfl) _ _
    · split
      · exact h.answer _ _
      · exact State.Taking.answer (State.Taking.raiseAll (s := { s with epoch := _ }) (h.same rfl)
          (fun _ hn => by cases hn) (fun _ hn => by cases hn)) _ _

theorem State.Taking.setOffset (p : List Byte) : (s.takeSetOffset l p).LinksSound := by
  have change : ∀ a t st, (s.changeAxis l a t st).LinksSound := fun _ _ _ => State.Taking.answer (h.same rfl) _ _
  unfold State.takeSetOffset
  split
  · exact change _ _ _
  · dsimp only
    split <;> exact change _ _ _
  · exact h.answer _ _
  · exact h.answer _ _

theorem State.Taking.setBaseline (p : List Byte) : (s.takeSetBaseline l p).LinksSound := by
  unfold State.takeSetBaseline
  dsimp only
  split
  · refine State.Taking.answer (State.Taking.same ?_ (State.requestWrite_links _ _)) _ _
    refine State.Taking.raiseOthers ?_ (fun _ hn => by cases hn) (fun _ hn => by cases hn)
    exact h.same rfl
  · exact h.answer _ _

/-- READ RECORDS with a count starts a transfer and makes the end test at once (R162). -/
theorem State.Taking.readRecords (p : List Byte) {e : Executing} (he : (s.links.get l).executing = some e)
    (hkind : e.command.kind = 0x10) (hreply : e.reply = none) : (s.takeReadRecords l p).LinksSound := by
  obtain ⟨c, reply, transfer⟩ := e
  obtain rfl : reply = none := hreply
  unfold State.takeReadRecords
  dsimp only
  split
  · exact h.answer _ _
  · next hcount =>
    refine State.onLink_forall LinkState.Sound s l _ h.1 ?_
    have hstart : (s.links.get l).startTransfer (min maxTransfer (u8At p 0).toNat)
        = { s.links.get l with executing := some ⟨c, none, some ⟨min maxTransfer (u8At p 0).toNat, 0, .running⟩⟩ } := by
      unfold LinkState.startTransfer
      rw [he]
      rfl
    rw [hstart]
    refine LinkState.Sound.endTest (h.1 l) s.ring.next ((h.1 l).line.free ?_) hkind ?_ ?_ (Nat.zero_le _)
    · intro e' he'
      obtain rfl := Option.some.inj (he.symm.trans he')
      exact ⟨rfl, h.2 _ he⟩
    · exact Nat.le_min.mpr ⟨by decide, Nat.pos_of_ne_zero hcount⟩
    · exact Nat.min_le_left _ _

/-- Every command keeps the links sound at its execution (R153). -/
theorem State.Taking.takeKind {c : Command} (he : (s.links.get l).executing = some ⟨c, none, none⟩) {k : Kind}
    (hk : Kind.ofByte c.kind = some k) (tag : Byte) (p : List Byte) : (s.takeKind l k tag p).LinksSound := by
  cases k with
  | readRecords => exact h.readRecords p he (Kind.eq_code_of_ofByte hk) rfl
  | stream => exact h.stream tag p
  | seek => exact h.seek p
  | readStatus => exact State.Taking.answer (h.same rfl) _ _
  | readNotice => exact h.readNotice
  | setNoticeMask =>
    exact State.Taking.answer (State.Taking.onLink (s := s.seeStrobe) (h.same rfl) l
      (f := fun k => { k with mask := maskBits (u16At p 0) }) (fun _ => rfl)
      (fun _ hk => { hk with maskBits := maskBits_high _ })) _ _
  | mark =>
    exact State.Taking.answer (State.Taking.onLink (s := s.markTaken) (h.same rfl) l (LinkState.offer_executing _)
      (fun _ hk => hk.offer _)) _ _
  | readMark => exact h.readMark
  | setMarkLine => exact h.setMarkLine p
  | labelNextSecond => exact h.label p
  | setOffset => exact h.setOffset p
  | openEdit =>
    simp only [State.takeKind, State.takeOpenEdit]
    split
    · split
      · exact h.answer _ _
      · exact State.Taking.answer (h.same (State.setEdit_links _ _)) _ _
    · split
      · exact State.Taking.answer (h.same (State.setEdit_links _ _)) _ _
      · exact h.answer _ _
    · exact h.answer _ _
  | writeKnot => exact h.editWrite _
  | writeBand => exact h.editWrite _
  | writeBias => exact h.editWrite _
  | writeHoldoverRate => exact h.editWrite _
  | commit =>
    simp only [State.takeKind, State.takeCommit]
    split
    · exact h.answer _ _
    · split
      · exact (h.same (by rw [State.requestWrite_links, State.setEdit_links])).1
      · exact h.answer _ _
    · exact h.answer _ _
  | abandon =>
    simp only [State.takeKind, State.takeAbandon]
    split
    · exact h.answer _ _
    · split
      · exact State.Taking.answer (h.same (State.setEdit_links _ _)) _ _
      · exact h.answer _ _
    · exact h.answer _ _
  | lockCalibration =>
    simp only [State.takeKind, State.takeLock]
    split
    · exact State.Taking.answer (h.same rfl) _ _
    · exact h.answer _ _
    · exact h.answer _ _
  | readTable =>
    simp only [State.takeKind, State.takeReadTable]
    split
    · exact h.answerTable p _
    · unfold State.readShadow
      split
      · exact h.answer _ _
      · split
        · exact State.Taking.answerTable (h.same (State.setEdit_links _ _)) p _
        · exact h.answer _ _
      · exact h.answer _ _
    · exact h.answer _ _
  | setBaseline => exact h.setBaseline p

end

namespace State.LinksSound

variable {s : State}

theorem same {u : State} (h : s.LinksSound) (hl : u.links = s.links) : u.LinksSound := fun l => by rw [hl]; exact h l

theorem onLink (h : s.LinksSound) (l : Link) {f : LinkState → LinkState} (hf : (f (s.links.get l)).Sound) :
    (s.onLink l f).LinksSound := State.onLink_forall LinkState.Sound s l f h hf

theorem map {u : State} (h : s.LinksSound) {f : LinkState → LinkState} (hl : u.links = s.links.map f)
    (hf : ∀ k, k.Sound → (f k).Sound) : u.LinksSound := fun l => by rw [hl, PerLink.get_map]; exact hf _ (h l)

theorem scale {u : State} (h : s.LinksSound) (hu : u.ScaleFrame s) : u.LinksSound := fun l =>
  (h l).sameButScaleNotices (hu.links l)

/-- A command enters the executing slot, of which the line needs nothing, and is executed (R153). -/
theorem begin (h : s.LinksSound) {l : Link} (hfree : (s.links.get l).LineFree) (c : Command) :
    (s.begin l c).LinksSound := by
  have he : ((s.onLink l (LinkState.enter c)).links.get l).executing = some ⟨c, none, none⟩ := by
    rw [State.onLink_get_same]
    rfl
  have htaking : (s.onLink l (LinkState.enter c)).Taking l := by
    refine ⟨h.onLink l ((h l).enter hfree c), fun e hexec => ?_⟩
    obtain rfl := Option.some.inj (he.symm.trans hexec)
    rfl
  unfold State.begin State.execute
  split
  · exact htaking.answer _ _
  · next k hk =>
    split
    · exact htaking.takeKind he hk _ _
    · exact htaking.answer _ _

/-- A good command reaches the queue (R152). -/
theorem handOver (h : s.LinksSound) (l : Link) (c : Command) : (s.handOver l c).LinksSound := by
  unfold State.handOver
  split
  · next hnone => exact h.begin ((h l).line.free (fun e he => by rw [hnone] at he; cases he)) c
  · next e he => exact h.onLink l ((h l).wait he c)

/-- The reply has been sent: the command leaves its slot, and one that waited moves up (R154). -/
theorem endReply (h : s.LinksSound) (l : Link) : (s.endReply l).LinksSound := by
  have hidle : (s.onLink l LinkState.lineIdle).LinksSound := h.onLink l (h l).lineIdle
  unfold State.endReply
  split
  · unfold State.leave
    split
    · next hwait =>
      refine hidle.onLink l ?_
      have hk := hidle l
      exact
        { hk with
          executing := fun _ he => by cases he
          line := fun t ht => by rw [State.onLink_get_same] at ht; cases ht
          waitsBehind := fun _ => hwait }
    · next c hwait =>
      have hemptied : ((s.onLink l LinkState.lineIdle).onLink l (fun k => { k with waiting := none })).LinksSound :=
        hidle.onLink l { hidle l with waitsBehind := fun _ => rfl }
      exact hemptied.begin (.of_idle (by rw [State.onLink_get_same, State.onLink_get_same]; rfl)) c
  · exact hidle
  · exact h
  · exact h
  · exact h

/-- The end of a store write answers a COMMIT still in execution and raises CALIB (R113, R114). -/
theorem endWrite (h : s.LinksSound) (w : StoreWrite) (success : Bool) : (s.endWrite w success).LinksSound := by
  have succeed : ∀ (u : State) v, u.LinksSound → (u.commitSuccess v).LinksSound := by
    intro u v hu
    unfold State.commitSuccess
    split
    · exact hu
    · exact hu
    · have hraised : ∀ cal, (State.raiseAll { u with cal := cal } (.calib v)).LinksSound := fun cal =>
        State.LinksSound.map (s := { u with cal := cal }) hu rfl
          (fun _ hk => hk.raise (fun _ hn => by cases hn) (fun _ hn => by cases hn))
      dsimp only
      split
      · exact hraised _
      · exact (hraised _).onLink _ ((hraised _ _).answerCommit _ _)
  have fail : ∀ u : State, u.LinksSound → u.commitFault.LinksSound := by
    intro u hu
    unfold State.commitFault
    split
    · exact hu
    · exact hu
    · split
      · exact hu
      · exact State.LinksSound.onLink (s := { u with cal := _ }) hu _ ((hu _).answerCommit _ _)
  have hdone : (s.writeDone w success).LinksSound := by cases success <;> exact h
  cases hk : w.kind with
  | baseline =>
    rw [State.endWrite_baseline success hk]
    exact hdone.same (State.chooseWrite_links _)
  | commit =>
    cases success with
    | true =>
      rw [State.endWrite_commit_success hk]
      exact (succeed _ _ hdone).same (State.chooseWrite_links _)
    | false =>
      rw [State.endWrite_commit_fault hk]
      exact (fail _ hdone).same (State.chooseWrite_links _)

/-- A record is appended, and a cursor that named the one removed moves on (R128, R131). -/
theorem appendRecord (h : s.LinksSound) (r : Record) : (s.appendRecord r).LinksSound := by
  unfold State.appendRecord
  dsimp only
  split
  · exact h
  · unfold State.removeOldest
    split
    · exact h
    · exact h.map rfl (fun _ hk => hk.passRemoved _)

theorem strobeWork (h : s.LinksSound) (k : Nat) (codeX codeY codeZ : Int) (d : Bool) :
    (s.strobeWork k codeX codeY codeZ d).LinksSound := by
  have hstrobed : (s.strobed k codeX codeY codeZ d).LinksSound := fun l => by
    unfold State.strobed
    exact reviseReplies_sound _ _ _ _ _ (reviseReplies_sound _ _ _ _ _ (reviseReplies_sound _ _ _ _ _ (h l)))
  rcases s.strobeWork_append k codeX codeY codeZ d with heq | ⟨sl, asm, -, -, -, -, heq⟩
  · rw [heq]; exact hstrobed
  · rw [heq]
    exact State.LinksSound.appendRecord (s := { s.strobed k codeX codeY codeZ d with asm := asm }) hstrobed _

/-- Time that passes nothing due stays short of an inter-byte timeout (R149). -/
theorem advance (h : s.LinksSound) {w : Nat} (hw : s.mayWait w) : (s.advance w).LinksSound := by
  intro l
  rw [State.advance_links]
  refine (h l).elapse (fun htiming => ?_)
  have hdue : gapTicks - (s.links.get l).rx.gap ∈ (s.links.get l).gapDue := by
    unfold LinkState.gapDue
    rw [if_pos htiming]
    exact List.mem_singleton_self _
  have hle := hw.le_due (State.gapDue_mem_dues hdue)
  have hbound := (h l).receiver.gap_le (Bool.and_eq_true_iff.mp htiming).1
  omega

end State.LinksSound

/-! ## The line -/

/-- The frame of a built reply begins (R155, R157). -/
theorem LinkState.Sound.beginReply {k : LinkState} (h : k.Sound) {n : Word} (hc : k.choice n = some .reply) :
    k.beginReply.Sound := by
  obtain ⟨e, r, he, hr, -⟩ := LinkState.choice_reply hc
  obtain ⟨hbad, hframing, htimeouts, hbreaks, htotal, -, hignored⟩ := h.counters
  simp only [LinkState.beginReply, he, hr]
  refine
    { h with
      executing := fun e' he' => h.executing e' (he.trans he')
      waitsBehind := fun hnone => (by cases hnone)
      line := fun t ht => ?_
      counters := ⟨hbad, hframing, htimeouts, hbreaks, htotal, Nat.zero_le _, hignored⟩ }
  obtain rfl := Option.some.inj ht
  exact ⟨e, rfl, by rw [hr]; rfl⟩

/-- A transfer's frame is delivered (R164, R168). -/
theorem LinkState.Sound.endTransferFrame {k : LinkState} (h : k.Sound) (next : Word) : (k.endTransferFrame next).Sound := by
  have hdelivered : ∀ q, (k.lineIdle.deliver q).Sound := fun q => h.lineIdle.deliver q
  unfold LinkState.endTransferFrame
  split
  · next q bytes htx =>
    obtain ⟨⟨c, reply, transfer⟩, ⟨requested, delivered, phase⟩, he, htransfer, hphase⟩ := h.line _ htx
    obtain rfl : transfer = some _ := htransfer
    obtain rfl : phase = .running := hphase
    obtain ⟨hkind, hone, hmax, -, hrun, -⟩ := h.executing _ he _ rfl
    obtain ⟨hless, hreply⟩ := hrun rfl
    obtain rfl : reply = none := hreply
    have hcounted : (k.lineIdle.deliver q.seq).countDelivered
        = { k.lineIdle.deliver q.seq with executing := some ⟨c, none, some ⟨requested, delivered + 1, .running⟩⟩ } := by
      unfold LinkState.countDelivered
      rw [LinkState.deliver_executing, LinkState.lineIdle_executing, he]
      rfl
    rw [hcounted]
    exact (hdelivered _).endTest next (.of_idle (by rw [LinkState.deliver_tx]; rfl)) hkind hone hmax hless
  · exact hdelivered _
  · exact h
  · exact h
  · exact h

theorem LinkState.Sound.endStreamFrame {k : LinkState} (h : k.Sound) : k.endStreamFrame.Sound := by
  unfold LinkState.endStreamFrame
  split
  · exact h.lineIdle.deliver _
  · exact h
  · exact h
  · exact h

/-! ## Errors and breaks -/

section

variable {k : LinkState} (h : k.Sound)

include h

theorem LinkState.Sound.toHunt : (k.setRx k.rx.toHunt).Sound := h.setRx (Receiver.toHunt_sound _) (fun _ => rfl)

theorem LinkState.Sound.dropBad : k.dropBad.Sound := by
  obtain ⟨-, hframing, htimeouts, hbreaks, htotal, hdisplaced, hignored⟩ := h.counters
  exact { h.toHunt with counters := ⟨bump_le _ _, hframing, htimeouts, hbreaks, htotal, hdisplaced, hignored⟩ }

theorem LinkState.Sound.framingError : k.framingError.Sound := by
  obtain ⟨hbad, -, htimeouts, hbreaks, htotal, hdisplaced, hignored⟩ := h.counters
  exact { h.toHunt with counters := ⟨hbad, bump_le _ _, htimeouts, hbreaks, htotal, hdisplaced, hignored⟩ }

theorem LinkState.Sound.timeOut : k.timeOut.Sound := by
  obtain ⟨hbad, hframing, -, hbreaks, htotal, hdisplaced, hignored⟩ := h.counters
  exact { h.toHunt with counters := ⟨hbad, hframing, bump_le _ _, hbreaks, htotal, hdisplaced, hignored⟩ }

theorem LinkState.Sound.holdByte (hs : k.rx.state ≠ .brk) : k.holdByte.Sound :=
  h.setRx (r := { k.rx with undecided := true }) h.receiver (fun hbrk => absurd hbrk hs)

/-- A break empties the slots and disowns the frame on the line (R150). -/
theorem LinkState.Sound.startBreak : k.startBreak.Sound := by
  obtain ⟨hbad, hframing, htimeouts, -, htotal, -, hignored⟩ := h.counters
  refine
    { h with
      receiver := Receiver.sound_of_noFrame rfl rfl
      undecided := fun _ => rfl
      executing := fun _ he => (by cases he)
      line := fun t ht => ?_
      waitsBehind := fun _ => rfl
      counters := ⟨hbad, hframing, htimeouts, bump_le _ _, htotal, Nat.zero_le _, hignored⟩ }
  obtain ⟨t₀, -, rfl⟩ := Option.map_eq_some_iff.mp (show k.tx.map _ = some t from ht)
  dsimp only
  cases t₀.what <;> trivial

theorem LinkState.Sound.endBreak (hs : k.rx.state = .brk) : (k.setRx { k.rx with state := .hunt }).Sound :=
  h.setRx (Receiver.sound_of_noFrame rfl (h.receiver.noFrame (by unfold Receiver.inFrame; rw [hs]))) (fun hbrk => by cases hbrk)

end

/-- Tables 8-5 and 10-4. -/
theorem LinkState.atReset_sound (ready : Bool) (cursor : Word) : (LinkState.atReset ready cursor).Sound where
  receiver := Receiver.sound_of_noFrame rfl rfl
  undecided _ := rfl
  executing _ he := by cases he
  line _ ht := by cases ht
  waitsBehind _ := rfl
  counters := ⟨Nat.zero_le _, Nat.zero_le _, Nat.zero_le _, Nat.zero_le _, Nat.zero_le _, Nat.zero_le _, Nat.zero_le _⟩
  markEntry := rfl
  ignoredZero _ := rfl
  gapDetail _ hn := by cases hn
  maskBits := BitVec.zero_and

theorem State.LinksSound.atReset (s : State) (ring : Ring) (cursor : LinkState → Word) (samples : Samples) :
    (s.resetBlocks ring (s.links.map (fun k => LinkState.atReset k.ready (cursor k))) samples).LinksSound := by
  intro l
  unfold State.resetBlocks
  rw [PerLink.get_map]
  exact LinkState.atReset_sound _ _

/-! ## The invariant -/

/-- Every event keeps each link in the shape of its tables. -/
theorem State.linksKept_ledByEvents : LedByEvents State.LinksSound State.LinksSound where
  stay _ h := h
  time _ _ h hw := h.advance hw
  powerOn s _ := .atReset s _ (fun _ => 0) _
  warm s _ _ _ := .atReset s _ LinkState.cursor _
  resetRequest _ h _ := h
  boundary s sn h _ _ := h.scale (.boundary s false sn)
  strobe _ k codeX codeY codeZ d h _ _ _ := h.strobeWork k codeX codeY codeZ d
  midpoint s h _ _ _ := h.scale (.closeWindow s)
  pps s h _ := h.scale (.ppsRecognised s)
  conversion s ch r h _ _ := by
    unfold State.takeConversion
    dsimp only
    have hset : ∀ t, (s.setThermometer t ch).LinksSound := fun t => h.same (by cases ch <;> rfl)
    split
    · exact hset _
    · exact (hset _).map rfl (fun _ hk => hk.raise (fun _ hn => by cases hn) (fun _ hn => by cases hn))
  lineMark s h _ := by
    refine h.map (f := LinkState.offerLine (s.capture .line)) rfl (fun k hk => ?_)
    unfold LinkState.offerLine
    split
    · exact hk.offer _
    · exact hk
  expire s l _ h _ _ :=
    State.LinksSound.onLink (s := { s with cal := { s.cal with edit := .none } }) h l
      ((h l).raise (n := .editExpired) (fun _ hn => by cases hn) (fun _ hn => by cases hn))
  endWrite _ w success h _ _ := h.endWrite w success
  ready _ l _ h _ := h.onLink l { h l with }
  framingError _ l h _ _ := h.onLink l (h l).framingError
  timeOut _ l h _ := h.onLink l (h l).timeOut
  dropBad _ l h _ := h.onLink l (h l).dropBad
  takeByte s l b r h _ hr := by
    refine h.onLink l ((h l).setRx ((h l).receiver.takeByte hr) (fun hbrk => ?_))
    have hsame := Receiver.takeByte_brk hr hbrk
    rw [hsame] at hbrk ⊢
    exact (h l).undecided hbrk
  holdByte _ l h _ hs := h.onLink l ((h l).holdByte hs)
  acceptFrame _ l _ c h _ _ := (h.onLink l (f := fun k => k.setRx k.rx.toHunt) (h l).toHunt).handOver l c
  handOver _ l c h _ := h.handOver l c
  startBreak s l h _ :=
    State.LinksSound.onLink (s := { s with cal := { s.cal with edit := s.cal.edit.onBreak l } }) h l (h l).startBreak
  endBreak _ l h _ hs := h.onLink l ((h l).endBreak hs)
  beginReply _ l h _ hc := h.onLink l ((h l).beginReply hc)
  endReply _ l h _ := h.endReply l
  beginTransfer s l h _ hc := by
    obtain ⟨e, t, he, ht, hrun, -⟩ := LinkState.choice_transfer hc
    unfold State.beginTransferFrame
    dsimp only
    split
    · exact h
    · refine h.onLink l ((h l).setTx (fun t' ht' => ?_))
      obtain rfl := Option.some.inj ht'
      exact ⟨e, t, he, ht, hrun⟩
  endTransfer s l h _ := h.onLink l ((h l).endTransferFrame s.ring.next)
  beginStream s l h _ _ := by
    unfold State.beginStreamFrame
    dsimp only
    split
    · exact h
    · refine h.onLink l ((h l).setTx (fun t' ht' => ?_))
      obtain rfl := Option.some.inj ht'
      trivial
  endStream _ l h _ := h.onLink l (h l).endStreamFrame
  powerLoss _ _ h _ := h

end Sys2Proof.Machine

namespace Sys2Proof.Proofs

open Sys2Proof.Machine

/-- Settles O56, by `State.linksKept_ledByEvents`. -/
theorem everyStepKeepsTheLinksSound : Obligations.EveryStepKeepsTheLinksSound :=
  fun _ _ hlinks hstep => State.linksKept_ledByEvents.step (fun _ _ h => h) hlinks hstep

end Sys2Proof.Proofs
end

section
/-! SUPPORT. The queue of the model and time: what n ticks change, when they can pass, and the frame that every command
shares. -/

namespace Sys2Proof.Machine

/-! ## What n ticks change -/

theorem State.advance_of_pos {n : Nat} (hn : 0 < n) (s : State) :
    s.advance n =
      { s with
        epoch := s.epoch.elapse n
        thermTS := s.thermTS.elapse n
        thermTO := s.thermTO.elapse n
        cal := { s.cal with edit := s.cal.edit.elapse n }
        store := { s.store with inFlight := s.store.inFlight.map (StoreWrite.elapse n) }
        links := s.links.map (LinkState.elapse n)
        samples := s.samples.elapse n
        replaced := none
        earlier := PerAxis.fill [] } :=
  if_neg (Nat.ne_of_gt hn)

theorem EpochTimer.elapse_elapse (m n : Nat) (e : EpochTimer) : (e.elapse m).elapse n = e.elapse (m + n) := by
  simp only [EpochTimer.elapse, EpochTimer.mk.injEq, true_and]
  omega

theorem Thermometer.elapse_elapse (m n : Nat) (t : Thermometer) : (t.elapse m).elapse n = t.elapse (m + n) := by
  cases hc : t.conversion <;> simp [Thermometer.elapse, hc, Nat.sub_sub]

theorem Edit.elapse_elapse (m n : Nat) (e : Edit) : (e.elapse m).elapse n = e.elapse (m + n) := by
  cases e <;> simp only [Edit.elapse, Nat.sub_sub]

theorem StoreWrite.elapse_elapse (m n : Nat) (w : StoreWrite) : (w.elapse m).elapse n = w.elapse (m + n) := by
  simp only [StoreWrite.elapse, Nat.add_assoc]

theorem Samples.elapse_elapse (m n : Nat) (p : Samples) : (p.elapse m).elapse n = p.elapse (m + n) := by
  simp only [Samples.elapse, Samples.mk.injEq]
  omega

/-- A receiver that times its gap goes on timing it. -/
theorem LinkState.elapse_elapse (m n : Nat) (k : LinkState) : (k.elapse m).elapse n = k.elapse (m + n) := by
  have htiming : (k.rx.elapse m).timing = k.rx.timing := rfl
  unfold LinkState.elapse
  dsimp only
  congr 1
  unfold Receiver.elapse at htiming ⊢
  rw [htiming]
  cases k.rx.timing
  · rfl
  · simp only [if_true, Nat.add_assoc]

/-- m ticks and then n ticks are m + n ticks. -/
theorem State.advance_advance (s : State) (m n : Nat) : (s.advance m).advance n = s.advance (m + n) := by
  rcases Nat.eq_zero_or_pos m with rfl | hm
  · rw [State.advance_zero, Nat.zero_add]
  rcases Nat.eq_zero_or_pos n with rfl | hn
  · rw [State.advance_zero, Nat.add_zero]
  have hlinks : (s.links.map (LinkState.elapse m)).map (LinkState.elapse n) = s.links.map (LinkState.elapse (m + n)) :=
    PerLink.ext_get fun l => by simp only [PerLink.get_map, LinkState.elapse_elapse]
  have hwrite : (s.store.inFlight.map (StoreWrite.elapse m)).map (StoreWrite.elapse n)
      = s.store.inFlight.map (StoreWrite.elapse (m + n)) := by
    rw [Option.map_map]
    exact congrArg (fun f => s.store.inFlight.map f) (funext fun w => w.elapse_elapse m n)
  rw [State.advance_of_pos hm, State.advance_of_pos hn, State.advance_of_pos (Nat.add_pos_left hm n)]
  dsimp only
  rw [hlinks, hwrite, EpochTimer.elapse_elapse, Thermometer.elapse_elapse, Thermometer.elapse_elapse, Edit.elapse_elapse,
    Samples.elapse_elapse]

/-! ## When n ticks can pass -/

theorem State.mayPass_iff (s : State) (n : Nat) : s.mayPass n = true ↔ ∀ d ∈ s.dues, n ≤ d := by
  simp only [State.mayPass, List.all_eq_true, decide_eq_true_eq]

/-- The next strobe is the earliest of those still to come, so it bounds the time as they all do. -/
theorem EpochTimer.strobes_due_iff (e : EpochTimer) (n : Nat) :
    (∀ d ∈ (e.nextStrobe.map (fun k => strobePos k - e.tickPos)).toList, n ≤ d)
      ↔ ∀ k < 10, e.ahead (strobePos k) = true → n ≤ strobePos k - e.tickPos := by
  cases hnext : e.nextStrobe with
  | none =>
    have hnone := EpochTimer.nextStrobe_eq_none.mp hnext
    exact ⟨fun _ k hk hahead => (by rw [hnone k hk] at hahead; cases hahead), fun _ d hd => (by cases hd)⟩
  | some j =>
    obtain ⟨hj, hahead, hfirst⟩ := EpochTimer.nextStrobe_eq_some.mp hnext
    simp only [Option.map_some, Option.toList_some, List.mem_singleton, forall_eq]
    refine ⟨fun h k _ hk => ?_, fun h => h j hj hahead⟩
    have hle : j ≤ k := by
      refine Nat.le_of_not_lt fun hlt => ?_
      rw [hfirst k hlt] at hk
      cases hk
    unfold strobePos at h ⊢
    omega

theorem Edit.due_iff (e : Edit) (n : Nat) : (∀ d ∈ e.due, n ≤ d) ↔ ∀ h sh idle, e = .editing h sh idle → n ≤ idle := by
  cases e with
  | none => exact ⟨fun _ _ _ _ he => (by cases he), fun _ _ hd => (by cases hd)⟩
  | committing h sh b => exact ⟨fun _ _ _ _ he => (by cases he), fun _ _ hd => (by cases hd)⟩
  | editing h sh idle =>
    simp only [Edit.due, List.mem_singleton, forall_eq, Edit.editing.injEq, and_imp]
    exact ⟨fun hle _ _ _ _ _ hidle => hidle ▸ hle, fun hle => hle h sh idle rfl rfl rfl⟩

theorem Receiver.timing_iff (r : Receiver) :
    r.timing = true ↔ (r.state = .header ∨ r.state = .payload ∨ r.state = .check) ∧ r.undecided = false := by
  unfold Receiver.timing Receiver.inFrame
  cases r.state <;> simp

theorem LinkState.gapDue_iff (k : LinkState) (n : Nat) :
    (∀ d ∈ k.gapDue, n ≤ d) ↔ (k.rx.timing = true → n ≤ 500000 - k.rx.gap) := by
  unfold LinkState.gapDue gapTicks
  split <;> simp_all

/-- The frame that the executing command has ready, or the stream, can begin (R157, R158, R163, R171). -/
theorem LinkState.choice_isSome_iff (next : Word) (k : LinkState) :
    (k.choice next).isSome = true ↔ k.ready = true ∧ k.tx = none
      ∧ ((∃ x r, k.executing = some x ∧ x.reply = some r)
        ∨ (k.cursor ≠ next ∧ (k.stream = true
          ∨ ∃ x t, k.executing = some x ∧ x.transfer = some t ∧ t.phase = .running ∧ t.delivered < t.requested))) := by
  have hstream : (k.streamChoice next).isSome = true ↔ k.cursor ≠ next ∧ k.stream = true := by
    unfold LinkState.streamChoice LinkState.behind
    split
    · next h => simpa [and_comm] using h
    · next h => simpa [and_comm] using h
  unfold LinkState.choice
  split
  · next hfree =>
    simp only [Bool.and_eq_true, Option.isNone_iff_eq_none] at hfree
    simp only [hfree, true_and]
    cases hx : k.executing with
    | none => simpa using hstream
    | some x =>
      cases hr : x.reply with
      | some r => simp [hr]
      | none =>
        cases ht : x.transfer with
        | none => simpa [hr, ht] using hstream
        | some t =>
          by_cases hready : k.transferReady next t = true
          · have hall := hready
            simp only [LinkState.transferReady, LinkState.behind, Bool.and_eq_true, decide_eq_true_eq, Bool.not_eq_true',
              decide_eq_false_iff_not] at hall
            simp [hr, ht, hready, hall]
          · have hnot := hready
            simp only [LinkState.transferReady, LinkState.behind, Bool.and_eq_true, decide_eq_true_eq, Bool.not_eq_true',
              decide_eq_false_iff_not] at hnot
            simp only [hr, ht, if_neg hready]
            rw [hstream]
            constructor
            · rintro ⟨hbehind, hon⟩
              exact .inr ⟨hbehind, .inl hon⟩
            · rintro (⟨x', r, hx', hr'⟩ | ⟨hbehind, hon | ⟨x', t', hx', ht', hrun, hless⟩⟩)
              · obtain rfl := Option.some.inj hx'
                rw [hr] at hr'
                cases hr'
              · exact ⟨hbehind, hon⟩
              · obtain rfl := Option.some.inj hx'
                obtain rfl := Option.some.inj (ht.symm.trans ht')
                exact absurd ⟨⟨hrun, hless⟩, hbehind⟩ hnot
  · next hbusy =>
    simp only [Bool.and_eq_true, Option.isNone_iff_eq_none] at hbusy
    simp only [Option.isSome_none, Bool.false_eq_true, false_iff]
    grind

theorem LinkState.txDue_iff (next : Word) (k : LinkState) (n : Nat) :
    (∀ d ∈ k.txDue next, n ≤ d) ↔ ((k.choice next).isSome = true → n = 0) := by
  unfold LinkState.txDue
  split <;> simp_all

theorem State.resetDue_iff (s : State) : s.resetDue = true ↔ s.resetWaiting = true ∧ s.store.inFlight = none := by
  simp only [State.resetDue, Bool.and_eq_true, Option.isNone_iff_eq_none]

/-- n ticks can pass exactly when nothing is due before they have passed, block by block. -/
theorem State.mayPass_iff_blocks (s : State) (n : Nat) :
    s.mayPass n = true ↔
      n ≤ s.epoch.len - s.epoch.tickPos
        ∧ (∀ k < 10, s.epoch.ahead (strobePos k) = true → n ≤ strobePos k - s.epoch.tickPos)
        ∧ (s.epoch.ahead s.epoch.midpoint = true → n ≤ s.epoch.midpoint - s.epoch.tickPos)
        ∧ (∀ d, s.thermTS.conversion = some d → n ≤ d) ∧ (∀ d, s.thermTO.conversion = some d → n ≤ d)
        ∧ (∀ h sh idle, s.cal.edit = .editing h sh idle → n ≤ idle)
        ∧ (∀ w, s.store.inFlight = some w → n ≤ 600000 - w.elapsed)
        ∧ (∀ l, ((s.links.get l).rx.timing = true → n ≤ 500000 - (s.links.get l).rx.gap)
          ∧ (((s.links.get l).choice s.ring.next).isSome = true → n = 0))
        ∧ (s.resetWaiting = true ∧ s.store.inFlight = none → n = 0) := by
  have hmid : (∀ d ∈ (if s.epoch.ahead s.epoch.midpoint then [s.epoch.midpoint - s.epoch.tickPos] else []), n ≤ d)
      ↔ (s.epoch.ahead s.epoch.midpoint = true → n ≤ s.epoch.midpoint - s.epoch.tickPos) := by
    split <;> simp_all
  have hopt : ∀ o : Option Nat, (∀ d ∈ o.toList, n ≤ d) ↔ ∀ d, o = some d → n ≤ d := by
    intro o
    cases o <;> simp
  have hwrite : (∀ d ∈ (s.store.inFlight.map (fun w => writeMaxTicks - w.elapsed)).toList, n ≤ d)
      ↔ ∀ w, s.store.inFlight = some w → n ≤ 600000 - w.elapsed := by
    cases s.store.inFlight <;> simp [writeMaxTicks]
  have hreset : (∀ d ∈ (if s.resetDue then [0] else []), n ≤ d)
      ↔ (s.resetWaiting = true ∧ s.store.inFlight = none → n = 0) := by
    rw [← State.resetDue_iff]
    split <;> simp_all
  have hlinks : ∀ p : LinkState → Prop, (∀ l, p (s.links.get l)) ↔ p s.links.a ∧ p s.links.b ∧ p s.links.c := fun p =>
    ⟨fun h => ⟨h .A, h .B, h .C⟩, fun ⟨ha, hb, hc⟩ l => match l with
      | .A => ha
      | .B => hb
      | .C => hc⟩
  rw [State.mayPass_iff]
  unfold State.dues
  simp only [List.forall_mem_append, List.mem_singleton, forall_eq, EpochTimer.strobes_due_iff, hmid,
    hopt s.thermTS.conversion, hopt s.thermTO.conversion, Edit.due_iff, hwrite, LinkState.gapDue_iff, LinkState.txDue_iff,
    hreset]
  rw [hlinks (fun k => (k.rx.timing = true → n ≤ 500000 - k.rx.gap) ∧ ((k.choice s.ring.next).isSome = true → n = 0))]
  constructor
  · rintro ⟨⟨⟨⟨⟨⟨⟨⟨⟨⟨⟨⟨⟨hlen, hstrobes⟩, hmark⟩, hTS⟩, hTO⟩, hidle⟩, hw⟩, hgA⟩, hgB⟩, hgC⟩, htA⟩, htB⟩, htC⟩, hr⟩
    exact ⟨hlen, hstrobes, hmark, hTS, hTO, hidle, hw, ⟨⟨hgA, htA⟩, ⟨hgB, htB⟩, hgC, htC⟩, hr⟩
  · rintro ⟨hlen, hstrobes, hmark, hTS, hTO, hidle, hw, ⟨⟨hgA, htA⟩, ⟨hgB, htB⟩, hgC, htC⟩, hr⟩
    exact ⟨⟨⟨⟨⟨⟨⟨⟨⟨⟨⟨⟨⟨hlen, hstrobes⟩, hmark⟩, hTS⟩, hTO⟩, hidle⟩, hw⟩, hgA⟩, hgB⟩, hgC⟩, htA⟩, htB⟩, htC⟩, hr⟩

/-! ## The frame of every command -/

/-- A station command names the wait with which it arrives. -/
theorem Instr.wait_of_arrival {i : Instr} {w : Nat} {l : Link} {c : Command} (ha : i.arrival = some (w, l, c)) :
    i.wait = some w := by
  cases i with
  | unknownKind w' l' k t p =>
    obtain ⟨-, harrival⟩ := Option.ite_none_right_eq_some.mp ha
    cases harrival
    rfl
  | _ => cases ha <;> rfl

/-- Every command but POWER_ON_RESET has the frame of `State.atInstant`, after the wait it names if it names one; or it finds
nothing that its event could take place on. -/
theorem exec_atInstant (c : Instr) (s : State) (hc : c ≠ .powerOnReset) :
    exec c s = .next s
      ∨ ∃ w occurs effect, exec c s = s.atInstant w occurs effect ∧ ∀ n, c.wait = some n → w = n := by
  cases ha : c.arrival with
  | some arrival =>
    obtain ⟨w, l, command⟩ := arrival
    exact .inr ⟨w, _, _, exec_arrival_eq ha, fun n hn => Option.some.inj ((Instr.wait_of_arrival ha).symm.trans hn)⟩
  | none =>
    cases c with
    | powerOnReset => exact absurd rfl hc
    | strobe x y z d =>
      cases hk : s.epoch.nextStrobe with
      | none => exact .inl (by simp only [exec, execStrobe, hk])
      | some k => exact .inr ⟨_, _, _, by simp only [exec, execStrobe, hk]; rfl, fun n hn => by cases hn⟩
    | conversionEnd ch r =>
      cases hconv : (s.thermometer ch).conversion with
      | none => exact .inl (by simp only [exec, execConversionEnd, hconv])
      | some n => exact .inr ⟨_, _, _, by simp only [exec, execConversionEnd, hconv]; rfl, fun n hn => by cases hn⟩
    | idleExpiry =>
      cases he : s.cal.edit with
      | none => exact .inl (by simp only [exec, execIdleExpiry, he])
      | editing h sh idle => exact .inr ⟨_, _, _, by simp only [exec, execIdleExpiry, he]; rfl, fun n hn => by cases hn⟩
      | committing h sh b => exact .inl (by simp only [exec, execIdleExpiry, he])
    | ordinaryBoundary | epochOutEnd | midpointMark | interByteTimeout | replyBegin | transferFrameBegin | streamFrameBegin
    | warmReset =>
      exact .inr ⟨_, _, _, by simp only [exec]; rfl, fun n hn => by cases hn⟩
    | resetRequest | ppsEdge | markLineEdge | storeWriteEnd | readyChange | framingError | badFrame | goodFrame | lineBreak
    | breakEnd | replySent | transferFrameDelivered | streamFrameDelivered | byteReceived | powerLoss | unknownKind =>
      exact .inr ⟨_, _, _, by simp only [exec]; rfl, fun n hn => Option.some.inj hn⟩
    | _ => cases ha

/-- Without power, or when its wait passes something that is due, an event does not take place. -/
theorem State.atInstant_of_not_mayWait {s : State} {w : Nat} (occurs : State → Bool) (effect : State → State)
    (h : ¬ s.mayWait w) : s.atInstant w occurs effect = .next s := by
  rcases s.atInstant_cases w occurs effect with hsame | ⟨hw, -, -⟩
  · exact hsame
  · exact absurd hw h

theorem exec_next (c : Instr) (s : State) : ∃ t, exec c s = .next t := by
  by_cases hc : c = .powerOnReset
  · subst hc
    exact ⟨_, rfl⟩
  · rcases exec_atInstant c s hc with hsame | ⟨w, occurs, effect, hexec, -⟩
    · exact ⟨s, hsame⟩
    · rcases s.atInstant_cases w occurs effect with hsame | ⟨-, -, hnext⟩
      · exact ⟨s, hexec.trans hsame⟩
      · exact ⟨_, hexec.trans hnext⟩

/-- No event touches the queue. -/
theorem State.pendingKept_ledByEvents (p : List Instr) :
    LedByEvents (fun s => s.pending = p) (fun s => s.pending = p) where
  stay _ h := h
  time s w h _ := (State.advance_pending w s).trans h
  powerOn _ h := h
  warm _ h _ _ := h
  resetRequest _ h _ := h
  boundary s sn h _ _ := (State.ScaleFrame.boundary s false sn).pending.trans h
  strobe s k codeX codeY codeZ d h _ _ _ := (s.strobeWork_frame k codeX codeY codeZ d).pending.trans h
  midpoint s h _ _ _ := (State.ScaleFrame.closeWindow s).pending.trans h
  pps s h _ := (State.ScaleFrame.ppsRecognised s).pending.trans h
  conversion s ch r h _ _ := by
    unfold State.takeConversion
    dsimp only
    split <;> cases ch <;> exact h
  lineMark _ h _ := h
  expire _ _ _ h _ _ := h
  endWrite s w success h _ _ := (State.CommandFrame.endWrite s w success).pending.trans h
  ready _ _ _ h _ := h
  framingError _ _ h _ _ := h
  timeOut _ _ h _ := h
  dropBad _ _ h _ := h
  takeByte _ _ _ _ h _ _ := h
  holdByte _ _ h _ _ := h
  acceptFrame s l _ c h _ _ := (State.CommandFrame.acceptFrame s l c).pending.trans h
  handOver s l c h _ := (State.CommandFrame.handOver s l c).pending.trans h
  startBreak _ _ h _ := h
  endBreak _ _ h _ _ := h
  beginReply _ _ h _ _ := h
  endReply s l h _ := (State.CommandFrame.endReply s l).pending.trans h
  beginTransfer s l h _ _ := (State.CommandFrame.beginTransferFrame s l).pending.trans h
  endTransfer _ _ h _ := h
  beginStream s l h _ _ := (State.CommandFrame.beginStreamFrame s l).pending.trans h
  endStream _ _ h _ := h
  powerLoss _ _ h _ := h

/-! ## The state after reset -/

/-- The state after reset is the one that POWER_ON_RESET leads to from itself. -/
theorem State.reset_eq_powerOn : State.reset = State.reset.powerOn := rfl

theorem State.reset_links_get (l : Link) :
    State.reset.links.get l = LinkState.atReset Config.readyAtPowerOn 0 := PerLink.get_fill _ l

theorem Ring.empty_sound : Ring.empty.Sound := ⟨by decide, by decide, by decide⟩

end Sys2Proof.Machine

namespace Sys2Proof.Proofs

open Sys2Proof.Machine

/-- Settles O1: `step` is defined so. -/
theorem stepRunsTheFrontCommand : Obligations.StepRunsTheFrontCommand := fun _ _ _ => rfl

/-- Settles O2, by `State.advance_of_pos`, `State.advance_advance` and `State.mayPass_iff_blocks`. -/
theorem timePassesTickByTick : Obligations.TimePassesTickByTick := by
  intro s
  refine ⟨⟨s.advance_zero, fun n hn => ?effect⟩, s.advance_advance, fun n => ?passes, fun hpending => ⟨?idle, ?stay⟩⟩
  case effect =>
    have hgap : ∀ k : LinkState, k.elapse n =
        { k with rx := { k.rx with gap :=
          if (k.rx.state = .header ∨ k.rx.state = .payload ∨ k.rx.state = .check) ∧ k.rx.undecided = false
          then k.rx.gap + n else k.rx.gap } } := by
      intro k
      simp only [LinkState.elapse, Receiver.elapse, Receiver.timing_iff]
    rw [State.advance_of_pos hn]
    simp only [← hgap]
    cases s.cal.edit <;> rfl
  case passes =>
    rw [State.mayPass_iff_blocks]
    simp only [EpochTimer.ahead_iff, Receiver.timing_iff, LinkState.choice_isSome_iff, and_imp]
    rfl
  case idle =>
    rintro ⟨hpowered, hpass⟩
    unfold step State.idleTick
    rw [hpending, hpowered, hpass]
    rfl
  case stay =>
    intro hno
    unfold step State.idleTick
    rw [hpending]
    exact congrArg _ (if_neg fun h => hno (Bool.and_eq_true_iff.mp h))

/-- Settles O3, by `exec_atInstant`: what does not take place changes nothing. -/
theorem everyCommandAnswersANextState : Obligations.EveryCommandAnswersANextState := by
  intro c s
  have hstays : ∀ w occurs effect, ¬ s.mayWait w → exec c s = s.atInstant w occurs effect → exec c s = .next s :=
    fun w occurs effect hno hexec => hexec.trans (State.atInstant_of_not_mayWait occurs effect hno)
  obtain ⟨t, ht⟩ := exec_next c s
  refine ⟨⟨t, ht, (State.pendingKept_ledByEvents s.pending).exec c rfl ht⟩, fun hpower hc => ?unpowered, fun n hn hpass => ?late⟩
  case unpowered =>
    rcases exec_atInstant c s hc with hsame | ⟨w, occurs, effect, hexec, -⟩
    · exact hsame
    · exact hstays w occurs effect (fun hw => by rw [hw.1] at hpower; cases hpower) hexec
  case late =>
    rcases exec_atInstant c s (fun hc => by subst hc; cases hn) with hsame | ⟨w, occurs, effect, hexec, hwait⟩
    · exact hsame
    · obtain rfl := hwait n hn
      exact hstays w occurs effect (fun hw => by rw [hw.2] at hpass; cases hpass) hexec

/-- Settles O60: the reset state is a power-on, and every invariant holds after one. -/
theorem resetStateIsSound : Obligations.ResetStateIsSound := by
  refine ⟨Ring.empty_sound, fun l => ?_, fun l q hq => ?_, fun l => ?_, ?_, .atReset rfl rfl, ?_, ?_⟩
  · rw [State.reset_links_get]
    decide
  · rw [State.reset_links_get] at hq
    cases hq
  · rw [State.reset_links_get]
    exact LinkState.atReset_sound _ _
  · rw [State.reset_eq_powerOn]
    exact .atReset State.reset _ _ _
  · rw [State.reset_eq_powerOn]
    exact .atReset State.reset _ _ _
  · refine ⟨fun q hq => (by cases hq), fun l c hc => ?_⟩
    rw [State.reset_links_get] at hc
    cases hc

end Sys2Proof.Proofs
end

section
/-! SUPPORT. Resets and power (R17, R18, R121 to R123), what a store image loads (R71), and the counts that run down. -/

namespace Sys2Proof.Machine

/-! ## The image a reset loads (R71, R121) -/

theorem Row.termsInRange_iff (r : Row) :
    r.termsInRange = true ↔
      ∀ k ∈ r.knots.toList, -1000000 ≤ k.g ∧ k.g ≤ 1000000 ∧ -1000000 ≤ k.o ∧ k.o ≤ 1000000 := by
  simp only [Row.termsInRange, List.all_eq_true, Bool.and_eq_true, within_iff, and_assoc, termLimit]

/-- The OSC row has the ranges of the axis rows, and G is 0 besides (Table 4-5). -/
theorem Row.oscInRange_iff (r : Row) :
    r.oscInRange = true ↔
      ∀ k ∈ r.knots.toList, -1000000 ≤ k.g ∧ k.g ≤ 1000000 ∧ -1000000 ≤ k.o ∧ k.o ≤ 1000000 ∧ k.g = 0 := by
  simp only [Row.oscInRange, List.all_eq_true, Bool.and_eq_true, within_iff, decide_eq_true_eq, termLimit]
  refine forall₂_congr fun k _ => ⟨fun ⟨hg, hlow, hhigh⟩ => ?_, fun ⟨_, _, hlow, hhigh, hg⟩ => ⟨hg, hlow, hhigh⟩⟩
  exact ⟨by omega, by omega, hlow, hhigh, hg⟩

/-- The four rows of a table within their ranges, as one statement over the row's name. -/
theorem Table.inRange_iff (t : Table) :
    (t.x.termsInRange = true ∧ t.y.termsInRange = true ∧ t.z.termsInRange = true ∧ t.osc.oscInRange = true) ↔
      ∀ row, ∀ k ∈ (t.row row).knots.toList,
        -1000000 ≤ k.g ∧ k.g ≤ 1000000 ∧ -1000000 ≤ k.o ∧ k.o ≤ 1000000 ∧ (row = .OSC → k.g = 0) := by
  have haxis : ∀ {row} (r : Row), row ≠ RowName.OSC → (r.termsInRange = true ↔ ∀ k ∈ r.knots.toList,
      -1000000 ≤ k.g ∧ k.g ≤ 1000000 ∧ -1000000 ≤ k.o ∧ k.o ≤ 1000000 ∧ (row = .OSC → k.g = 0)) := fun r hne => by
    rw [Row.termsInRange_iff]
    exact forall₂_congr fun k _ => by simp only [hne, false_implies, and_true]
  have hosc : t.osc.oscInRange = true ↔ ∀ k ∈ t.osc.knots.toList,
      -1000000 ≤ k.g ∧ k.g ≤ 1000000 ∧ -1000000 ≤ k.o ∧ k.o ≤ 1000000 ∧ (RowName.OSC = .OSC → k.g = 0) := by
    rw [Row.oscInRange_iff]
    exact forall₂_congr fun k _ => by simp only [true_implies]
  rw [haxis (row := .X) t.x (by decide), haxis (row := .Y) t.y (by decide), haxis (row := .Z) t.z (by decide), hosc]
  refine ⟨fun ⟨hx, hy, hz, ho⟩ row => ?_, fun h => ⟨h .X, h .Y, h .Z, h .OSC⟩⟩
  cases row
  · exact hx
  · exact hy
  · exact hz
  · exact ho

/-- An image is good when its CRC and its mode codes are and every item lies within its range (R71). -/
theorem StoreImage.good_iff (img : StoreImage) :
    (img.crcGood && img.inRange) = true ↔
      img.crcGood = true ∧ img.modesGood = true ∧ img.contents.cal.h ≤ 1000
        ∧ (∀ a, -80000000 ≤ img.contents.cal.bias.get a ∧ img.contents.cal.bias.get a ≤ 80000000)
        ∧ (∀ a, -10000000 ≤ img.contents.baseline.get a ∧ img.contents.baseline.get a ≤ 10000000)
        ∧ (∀ row, ∀ k ∈ (img.contents.cal.table.row row).knots.toList,
            -1000000 ≤ k.g ∧ k.g ≤ 1000000 ∧ -1000000 ≤ k.o ∧ k.o ≤ 1000000 ∧ (row = .OSC → k.g = 0)) := by
  rw [← Table.inRange_iff]
  simp only [StoreImage.inRange, Bool.and_eq_true, CalSet.inRange_iff, PerAxis.allWithin_iff, biasLimit, baselineLimit,
    holdoverLimit]
  grind

theorem StoreImage.loaded_of_good {img : StoreImage} (h : (img.crcGood && img.inRange) = true) :
    img.loaded = img.contents := if_pos h

theorem StoreImage.loaded_of_not_good {img : StoreImage} (h : ¬ (img.crcGood && img.inRange) = true) :
    img.loaded = StoreContents.default := if_neg h

/-- Every row of the default calibration has zero terms and INTERP bands (Table 4-9). -/
theorem StoreContents.default_row (row : RowName) : StoreContents.default.cal.table.row row = Row.default := by
  cases row <;> rfl

theorem Row.default_knots : ∀ k ∈ Row.default.knots.toList, k = ⟨0, 0⟩ := by
  intro k hk
  rw [Row.default, Vector.toList_replicate] at hk
  exact List.eq_of_mem_replicate hk

theorem Row.default_bands : ∀ m ∈ Row.default.bands.toList, m = .interp := by
  intro m hm
  rw [Row.default, Vector.toList_replicate] at hm
  exact List.eq_of_mem_replicate hm

/-! ## The image after a power loss (R123) -/

theorem Store.afterLoss_of_none {st : Store} (found : LossImage) (h : st.inFlight = none) : st.afterLoss found = st := by
  simp only [Store.afterLoss, h]

/-- The write in flight is gone, and the image is the one found. -/
theorem Store.afterLoss_of_some {st : Store} {w : StoreWrite} (found : LossImage) (h : st.inFlight = some w) :
    ∃ img : StoreImage, st.afterLoss found = { st with inFlight := none, image := img }
      ∧ (found = .before → img = st.image)
      ∧ (found = .written → img.contents = w.contents ∧ img.crcGood = true ∧ img.modesGood = true)
      ∧ (found = .crcFails → img.crcGood = false) := by
  cases found
  · exact ⟨st.image, by simp only [Store.afterLoss, h], fun _ => rfl, (by simp), (by simp)⟩
  · exact ⟨⟨w.contents, true, true⟩, by simp only [Store.afterLoss, h], (by simp), (by simp), (by simp)⟩
  · exact ⟨⟨w.contents, true, false⟩, by simp only [Store.afterLoss, h], (by simp), (by simp), (by simp)⟩

/-! ## Counts that run down (R9, R108) -/

theorem State.advance_epochOutLeft (s : State) (n : Nat) :
    (s.advance n).epoch.epochOutLeft = s.epoch.epochOutLeft - n := by
  rw [State.advance_epoch]
  split
  · next h => rw [h, Nat.sub_zero]
  · rfl

end Sys2Proof.Machine

namespace Sys2Proof.Proofs

open Sys2Proof.Machine

/-- Settles O4: `State.powerOn` names every field. -/
theorem powerOnResetSetsEveryBlock : Obligations.PowerOnResetSetsEveryBlock := fun _ => rfl

/-- Settles O5, by whether the request or the reset can occur at its instant. -/
theorem warmResetKeepsRingAndCursors : Obligations.WarmResetKeepsRingAndCursors := by
  refine ⟨fun s w hw => ⟨fun hlow => ?edge, fun hhigh => ?noEdge⟩, fun s hpower => ⟨fun hwaits hfree => ?resets, fun hno => ?stays⟩⟩
  case edge =>
    simp only [exec, execResetRequest]
    exact State.atInstant_of_occurs _ hw (decide_eq_true hlow)
  case noEdge =>
    simp only [exec, execResetRequest]
    exact State.atInstant_of_not_occurs _ (decide_eq_false (Nat.ne_of_lt hhigh))
  case resets =>
    have hdue : (s.advance 0).resetDue = true := by
      rw [State.advance_zero, State.resetDue_iff]
      exact ⟨hwaits, hfree⟩
    simp only [exec, execWarmReset]
    rw [State.atInstant_of_occurs _ (State.mayWait_zero hpower) hdue, State.advance_zero]
    rfl
  case stays =>
    refine State.atInstant_of_not_occurs _ (Bool.eq_false_iff.mpr fun hdue => ?_)
    rw [State.advance_zero, State.resetDue_iff] at hdue
    rcases hno with hno | hno
    · rw [hdue.1] at hno
      cases hno
    · exact hno hdue.2

/-- Settles O6, by `Store.afterLoss_of_some` and `StoreImage.good_iff`. -/
theorem storeImageSurvivesOrGivesTheDefaults : Obligations.StoreImageSurvivesOrGivesTheDefaults := by
  refine ⟨fun s w found hw => ⟨fun hnone => ?idle, fun wr hwr => ?writing⟩, fun img => ⟨fun hgood => ?loads, fun hbad => ?defaults⟩⟩
  case idle =>
    simp only [exec, execPowerLoss]
    rw [State.atInstant_of_occurs _ hw rfl, Store.afterLoss_of_none found hnone]
  case writing =>
    obtain ⟨img, himg, hcases⟩ := Store.afterLoss_of_some found hwr
    refine ⟨img, ?_, hcases⟩
    simp only [exec, execPowerLoss]
    rw [State.atInstant_of_occurs _ hw rfl, himg]
  case loads => exact StoreImage.loaded_of_good (img.good_iff.mpr hgood)
  case defaults =>
    rw [StoreImage.loaded_of_not_good (fun h => hbad (img.good_iff.mp h))]
    refine ⟨rfl, rfl, rfl, rfl, rfl, fun row => ?_⟩
    rw [StoreContents.default_row]
    exact ⟨Row.default_knots, Row.default_bands⟩

/-- Settles O7, by `State.boundary_outcome`. -/
theorem ordinaryBoundaryBeginsTheNextSecond : Obligations.OrdinaryBoundaryBeginsTheNextSecond := fun s hw =>
  ⟨_, exec_ordinaryBoundary hw, (s.advance (s.epoch.len - s.epoch.tickPos)).boundary_outcome false (s.epoch.sn + 1)⟩

/-- Settles O9, by the count and by the edit state. -/
theorem runningCountsReachTheirEnd : Obligations.RunningCountsReachTheirEnd := by
  intro s
  refine ⟨fun hw hleft => ⟨?ends, ?zero⟩, fun hnone => ?released, fun h sh idle hedit hw => ?expires, fun hedit => ?noEdit,
    fun h sh b hedit => ?committing⟩
  case ends =>
    simp only [exec, execEpochOutEnd]
    exact State.atInstant_of_occurs id hw (decide_eq_true hleft)
  case zero => rw [State.advance_epochOutLeft, Nat.sub_self]
  case released =>
    simp only [exec, execEpochOutEnd]
    exact State.atInstant_of_not_occurs _ (decide_eq_false (by omega))
  case expires =>
    simp only [exec, execIdleExpiry, hedit]
    exact State.atInstant_of_occurs _ hw rfl
  case noEdit => simp only [exec, execIdleExpiry, hedit]
  case committing => simp only [exec, execIdleExpiry, hedit]

end Sys2Proof.Proofs
end

section
/-! SUPPORT. Rounding (00_scope.md, Arithmetic), and what a strobe does to a channel and to the open slot (R42 to R52, R82,
R83). -/

namespace Sys2Proof.Machine

/-! ## Rounding -/

/-- Above zero the rounded quotient is at most half a unit above the quotient and less than half a unit below it. -/
theorem roundDiv_near_of_nonneg {a b : Int} (hb : 0 < b) (ha : 0 ≤ a) :
    2 * (b * roundDiv a b - a) ≤ b ∧ 2 * (a - b * roundDiv a b) < b := by
  rw [roundDiv, if_pos ha]
  have hdivision := Int.mul_ediv_add_emod (2 * a + b) (2 * b)
  have hlow := Int.emod_nonneg (2 * a + b) (show 2 * b ≠ 0 by omega)
  have hhigh := Int.emod_lt_of_pos (2 * a + b) (show 0 < 2 * b by omega)
  rw [Int.mul_assoc] at hdivision
  omega

/-! ## The channel at a strobe (R42 to R52) -/

theorem residualOf_eq (code : Int) : residualOf code = max (-8388607) (min 8388607 code) := rfl

theorem AxisChannel.decides_iff (c : AxisChannel) : c.decides = true ↔ c.mode = .auto ∧ c.settle = 0 := by
  simp only [AxisChannel.decides, Bool.and_eq_true, decide_eq_true_eq]

/-- The reading of a strobe, with its SAT, SETTLE and LIMIT marks (R42, R47, R49). -/
theorem AxisChannel.reading_eq (c : AxisChannel) (a : Axis) (sn : Word) (k : Nat) (code : Int) (d : Bool) :
    let r := max (-8388607) (min 8388607 code)
    c.reading a sn k code d =
      { axis := a, sn := sn, k := k, residual := r, index := c.index
        sat := decide (r = 8388607 ∨ r = -8388607), settle := decide (0 < c.settle)
        limit := decide ((((c.mode = .auto ∧ c.settle = 0) ∧ 6000000 < r) ∧ 6 ≤ c.index)
          ∨ (((c.mode = .auto ∧ c.settle = 0) ∧ r < -6000000) ∧ c.index ≤ -6)), disturb := d } := by
  have hsat : ∀ r : Int, isSaturated r = decide (r = 8388607 ∨ r = -8388607) := fun r => (Bool.decide_or _ _).symm
  have hlimit : ∀ r : Int, (c.decides && isLimited r c.index)
      = decide ((((c.mode = .auto ∧ c.settle = 0) ∧ 6000000 < r) ∧ 6 ≤ c.index)
        ∨ (((c.mode = .auto ∧ c.settle = 0) ∧ r < -6000000) ∧ c.index ≤ -6)) := fun r => by
    simp only [AxisChannel.decides, isLimited, stepThreshold, indexLimit, ← Bool.decide_and, ← Bool.decide_or, decide_eq_decide]
    grind
  unfold AxisChannel.reading
  rw [hsat, hlimit]
  rfl

section

variable {c : AxisChannel} {r : Int}

theorem AxisChannel.settleAndStep_up (hd : c.mode = .auto ∧ c.settle = 0) (hr : 6000000 < r) (hi : c.index < 6) :
    c.settleAndStep r = { c with index := c.index + 1, settle := 3 } := by
  rw [AxisChannel.settleAndStep, if_pos (c.decides_iff.mpr hd)]
  exact if_pos ⟨hr, hi⟩

theorem AxisChannel.settleAndStep_down (hd : c.mode = .auto ∧ c.settle = 0) (hr : r < -6000000) (hi : -6 < c.index) :
    c.settleAndStep r = { c with index := c.index - 1, settle := 3 } := by
  have hup : ¬ (stepThreshold < r ∧ c.index < indexLimit) := fun h => by unfold stepThreshold at h; omega
  rw [AxisChannel.settleAndStep, if_pos (c.decides_iff.mpr hd), if_neg hup]
  exact if_pos ⟨hr, hi⟩

/-- Without a step the settle count counts down, and the index stays (R47, R48). -/
theorem AxisChannel.settleAndStep_stay (hup : ¬ (((c.mode = .auto ∧ c.settle = 0) ∧ 6000000 < r) ∧ c.index < 6))
    (hdown : ¬ (((c.mode = .auto ∧ c.settle = 0) ∧ r < -6000000) ∧ -6 < c.index)) :
    (c.settleAndStep r).index = c.index ∧ (c.settleAndStep r).settle = c.settle - 1 := by
  by_cases hd : c.mode = .auto ∧ c.settle = 0
  · have hnoUp : ¬ (stepThreshold < r ∧ c.index < indexLimit) := fun h => hup ⟨⟨hd, h.1⟩, h.2⟩
    have hnoDown : ¬ (r < -stepThreshold ∧ -indexLimit < c.index) := fun h => hdown ⟨⟨hd, h.1⟩, h.2⟩
    rw [AxisChannel.settleAndStep, if_pos (c.decides_iff.mpr hd), if_neg hnoUp, if_neg hnoDown]
    exact ⟨rfl, by rw [hd.2]⟩
  · rw [AxisChannel.settleAndStep, if_neg (fun h => hd (c.decides_iff.mp h))]
    exact ⟨rfl, rfl⟩

theorem AxisChannel.settleAndStep_mode (c : AxisChannel) (r : Int) : (c.settleAndStep r).mode = c.mode := by
  unfold AxisChannel.settleAndStep
  split
  · split
    · rfl
    · split <;> rfl
  · rfl

end

/-! ## The command STROBE -/

theorem exec_strobe_none {s : State} (codeX codeY codeZ : Int) (d : Bool) (h : s.epoch.nextStrobe = none) :
    exec (.strobe codeX codeY codeZ d) s = .next s := by
  simp only [exec, execStrobe, h]

/-- The next strobe takes place at its tick position (R5). -/
theorem exec_strobe {s : State} {k : Nat} (codeX codeY codeZ : Int) (d : Bool) (hk : s.epoch.nextStrobe = some k)
    (hw : s.mayWait (500000 + 1000000 * k - s.epoch.tickPos)) :
    exec (.strobe codeX codeY codeZ d) s
      = .next ((s.advance (500000 + 1000000 * k - s.epoch.tickPos)).strobeWork k codeX codeY codeZ d) := by
  simp only [exec, execStrobe, hk]
  exact State.atInstant_of_occurs _ hw rfl

/-- Where no SET OFFSET is late, a strobe's work is on the channel that stands. -/
theorem State.strobeWork_axes_of_no_late {s : State} {k : Nat} {x : Axis} (codeX codeY codeZ : Int) (d : Bool)
    (h : k ≠ 4 ∨ s.earlier.get x = []) :
    (s.strobeWork k codeX codeY codeZ d).axes.get x
      = (s.axes.get x).strobe x s.epoch.sn k ((⟨codeX, codeY, codeZ⟩ : PerAxis Int).get x) d := by
  rw [State.strobeWork_axes, State.channelAt_eq h, State.lateSettings_eq_nil h]
  cases x <;> rfl

/-- At every strobe but the fourth no record is formed. -/
theorem State.strobeWork_of_ne_four {s : State} {k : Nat} (codeX codeY codeZ : Int) (d : Bool) (h : k ≠ 4) :
    s.strobeWork k codeX codeY codeZ d = s.strobed k codeX codeY codeZ d := by
  rw [State.strobeWork_eq]
  exact (State.completeIfDue_keeps _ k).2.2.2 h

/-- Before the completion a strobe leaves the links alone where no SET OFFSET is late. -/
theorem State.strobed_links_of_no_late {s : State} {k : Nat} (codeX codeY codeZ : Int) (d : Bool)
    (h : ∀ x, k ≠ 4 ∨ s.earlier.get x = []) : (s.strobed k codeX codeY codeZ d).links = s.links := by
  unfold State.strobed
  dsimp only
  rw [State.lateSettings_eq_nil (h .X), State.lateSettings_eq_nil (h .Y), State.lateSettings_eq_nil (h .Z)]
  rfl

theorem State.strobeWork_choices (s : State) (k : Nat) (codeX codeY codeZ : Int) (d : Bool) :
    (s.strobeWork k codeX codeY codeZ d).choices = if k = 4 then s.choices + 1 else s.choices := by
  rw [State.strobeWork_eq, (State.completeIfDue_keeps _ k).1.choices]
  rfl

/-! ## The slot at a strobe (R82, R83) -/

/-- The assembler before the completion: the slot alone changes. -/
theorem State.strobed_asm (s : State) (k : Nat) (codeX codeY codeZ : Int) (d : Bool) :
    (s.strobed k codeX codeY codeZ d).asm = { s.asm with slot := (s.strobed k codeX codeY codeZ d).asm.slot } := by
  unfold State.strobed State.openSlotIfDue
  dsimp only
  split <;> rfl

/-- The readings of a strobe in the slot that takes them are the latest readings of the channels after it. -/
theorem State.strobeWork_asm_of_takes {s : State} {k : Nat} {sl : Slot} (codeX codeY codeZ : Int) (d : Bool) (h4 : k ≠ 4)
    (hslot : (if k = 5 then some (Slot.opened s.epoch.sn) else s.asm.slot) = some sl) (htakes : sl.takes k = true) :
    let t := s.strobeWork k codeX codeY codeZ d
    t.asm = { s.asm with slot := some { sl with
      readings := ⟨sl.readings.x ++ (t.axes.get .X).latest.toList, sl.readings.y ++ (t.axes.get .Y).latest.toList,
        sl.readings.z ++ (t.axes.get .Z).latest.toList⟩
      disturb := sl.disturb || d } } := by
  have hdisturb : (sl.disturb || d || d || d) = (sl.disturb || d) := by simp only [Bool.or_assoc, Bool.or_self]
  intro t
  have hlatest := s.strobeWork_latest k codeX codeY codeZ d
  rw [hlatest, hlatest, hlatest, ← hdisturb]
  rw [show t = s.strobed k codeX codeY codeZ d from State.strobeWork_of_ne_four codeX codeY codeZ d h4, State.strobed_asm,
    State.strobed_slot_of_takes codeX codeY codeZ d hslot htakes]
  rfl

end Sys2Proof.Machine

namespace Sys2Proof.Proofs

open Sys2Proof.Machine

/-- Settles O14, by the sign of a; below zero it is the mirror image. -/
theorem roundingIsToNearestTiesAway : Obligations.RoundingIsToNearestTiesAway := by
  intro a b hb
  have hmirror := roundDiv_neg (a := a) hb
  rcases Int.le_total 0 a with ha | ha
  · obtain ⟨hover, hunder⟩ := roundDiv_near_of_nonneg hb ha
    exact ⟨hover, Int.le_of_lt hunder, fun _ => ha, fun htie => absurd htie (Int.ne_of_lt hunder), hmirror⟩
  · obtain ⟨hover, hunder⟩ := roundDiv_near_of_nonneg hb (a := -a) (by omega)
    rw [hmirror, Int.mul_neg] at hover hunder
    exact ⟨by omega, by omega, fun htie => by omega, fun _ => ha, hmirror⟩

/-- Settles O10: where no SET OFFSET is late the channel after the strobe is `AxisChannel.strobe` of the one that stands, whose
steps are those of `AxisChannel.settleAndStep`. -/
theorem strobeTakesOneReadingPerAxis : Obligations.StrobeTakesOneReadingPerAxis := by
  intro s codeX codeY codeZ d
  refine ⟨exec_strobe_none codeX codeY codeZ d, fun k hk hw => ?_⟩
  intro a code
  have hframe := a.strobeWork_frame k codeX codeY codeZ d
  refine ⟨_, exec_strobe codeX codeY codeZ d hk hw, fun x hlate => ?axis, (a.strobeWork_scale k codeX codeY codeZ d).1,
    hframe.powered, hframe.disc, hframe.thermTS, hframe.thermTO, hframe.cal, hframe.store, hframe.resetWaiting,
    hframe.samples, hframe.pending, a.strobeWork_choices k codeX codeY codeZ d, hframe.earlier, fun h4 => ?others⟩
  case axis =>
    intro c r settled decides up down
    have haxis : (a.strobeWork k codeX codeY codeZ d).axes.get x = c.strobe x s.epoch.sn k (code x) d := by
      rw [State.strobeWork_axes_of_no_late codeX codeY codeZ d hlate, State.advance_axes, State.advance_epoch_sn]
      cases x <;> rfl
    rw [haxis]
    refine ⟨c.settleAndStep_mode r, congrArg some (c.reading_eq x s.epoch.sn k (code x) d), fun h => ?_, fun h => ?_,
      AxisChannel.settleAndStep_stay⟩
    · have hstep := AxisChannel.settleAndStep_up h.1.1 h.1.2 h.2
      exact ⟨congrArg AxisChannel.index hstep, congrArg AxisChannel.settle hstep⟩
    · have hstep := AxisChannel.settleAndStep_down h.1.1 h.1.2 h.2
      exact ⟨congrArg AxisChannel.index hstep, congrArg AxisChannel.settle hstep⟩
  case others =>
    rw [State.strobeWork_of_ne_four codeX codeY codeZ d h4]
    exact ⟨State.strobed_ring a k codeX codeY codeZ d, State.strobed_links_of_no_late codeX codeY codeZ d (fun _ => .inl h4)⟩

/-- Settles O11: strobe 5 opens its slot, and the others find the one that takes them (`Slot.takes`). -/
theorem strobeFillsTheOpenSlot : Obligations.StrobeFillsTheOpenSlot := by
  intro s codeX codeY codeZ d k hk hw h4
  refine ⟨_, exec_strobe codeX codeY codeZ d hk hw, fun h5 => ?opens, fun sl hsl htakes => ?appends⟩
  case opens =>
    have hasm := State.strobeWork_asm_of_takes (s := s.advance (500000 + 1000000 * k - s.epoch.tickPos)) codeX codeY codeZ d
      h4 (if_pos h5) (by rw [h5]; rfl)
    rw [hasm, State.advance_asm, State.advance_epoch_sn]
    rfl
  case appends =>
    have h5 : k ≠ 5 := by omega
    have hfits : sl.takes k = true := by
      unfold Slot.takes
      rcases htakes with ⟨hlow, harrived⟩ | ⟨hhigh, hnext⟩
      · rw [if_pos (by omega)]; exact harrived
      · rw [if_neg (by omega), hnext]; rfl
    have hasm := State.strobeWork_asm_of_takes (s := s.advance (500000 + 1000000 * k - s.epoch.tickPos)) codeX codeY codeZ d
      h4 ((if_neg h5).trans (by rw [State.advance_asm]; exact hsl)) hfits
    rw [hasm, State.advance_asm]

end Sys2Proof.Proofs
end

section
/-! SUPPORT. Strobe 4 (R56, R85 to R96): the record that completes, the links at the append, and the SET OFFSETs that come
between the readings and the completion. -/

namespace Sys2Proof.Machine

/-! ## The append and the links -/

/-- What an append does to a link does not touch the executing slot, and depends on the ring alone. -/
theorem State.appendRecord_links (s : State) (record : Record) :
    ∃ f : LinkState → LinkState, (∀ k x, f { k with executing := x } = { f k with executing := x })
      ∧ ∀ u : State, u.ring = s.ring → (u.appendRecord record).links = u.links.map f := by
  by_cases hroom : s.ring.count < ringCapacity
  · refine ⟨id, fun _ _ => rfl, fun u hu => ?_⟩
    rw [State.appendRecord_of_room record (by rw [hu]; exact hroom)]
    rfl
  · cases hr : s.ring.records with
    | nil =>
      refine ⟨id, fun _ _ => rfl, fun u hu => ?_⟩
      rw [State.appendRecord_of_full record (by rw [hu]; exact Nat.not_lt.mp hroom), State.removeOldest, hu, hr]
      rfl
    | cons q rest =>
      refine ⟨LinkState.passRemoved q.seq, fun k x => ?_, fun u hu => ?_⟩
      · by_cases hc : k.cursor = q.seq
        · rw [LinkState.passRemoved_of_eq hc, LinkState.passRemoved_of_eq (k := { k with executing := x }) hc]
        · rw [LinkState.passRemoved_of_ne hc, LinkState.passRemoved_of_ne (k := { k with executing := x }) hc]
      · rw [State.appendRecord_of_full record (by rw [hu]; exact Nat.not_lt.mp hroom),
          State.removeOldest_of_cons (by rw [hu]; exact hr)]

theorem State.appendRecord_ring_congr {u s : State} (h : u.ring = s.ring) (record : Record) :
    (u.appendRecord record).ring = (s.appendRecord record).ring := by
  unfold State.appendRecord State.removeOldest
  rw [h]
  split
  · exact congrArg (Ring.place · record) h
  · split
    · exact congrArg (Ring.place · record) h
    · rfl

/-- The append leaves every executing slot alone. -/
theorem State.appendRecord_executing (s : State) (record : Record) (l : Link) :
    ((s.appendRecord record).links.get l).executing = (s.links.get l).executing := by
  obtain ⟨f, hf, hlinks⟩ := s.appendRecord_links record
  rw [hlinks s rfl, PerLink.get_map]
  have hsame : f (s.links.get l) = { f (s.links.get l) with executing := (s.links.get l).executing } :=
    hf (s.links.get l) (s.links.get l).executing
  rw [hsame]

/-! ## One axis of a record (R87 to R90, R94) -/

section

variable (u : State) (sl : Slot) (x : Axis)

theorem State.axisRecord_value_of_none_valid (h : (sl.readings.get x).filter Reading.isValid = []) :
    (u.axisRecord sl x).value = none := by
  simp only [State.axisRecord, axisMean_of_none_valid h, Option.map_none]

theorem State.axisRecord_value_of_valid (h : (sl.readings.get x).filter Reading.isValid ≠ []) :
    let valid := (sl.readings.get x).filter Reading.isValid
    let look := (u.cal.active.table.axisRow x).lookup u.thermTS
    let m := roundDiv ((valid.map (fieldValue (u.cal.active.bias.get x))).sum) valid.length
    (u.axisRecord sl x).value = some (correctedValue m look (u.cal.baseline.get x)) := by
  simp only [State.axisRecord, axisMean_of_valid h, Option.map_some]

end

/-- DEGRADED: the valid count is within 1..5 (R88). -/
theorem isDegraded_eq (v : Nat) : isDegraded v = decide (1 ≤ v ∧ v ≤ 5) := (Bool.decide_and _ _).symm

/-- Every field of an axis's part of the record, from the list of its readings and the lookup (R86 to R94). -/
theorem State.axisRecord_fields {u : State} {sl : Slot} {x : Axis} {list : List Reading} {look : LookupResult}
    (hlist : sl.readings.get x = list) (hlook : (u.cal.active.table.axisRow x).lookup u.thermTS = look) :
    let valid := list.filter (fun r => !r.sat && !r.settle)
    let m := roundDiv ((valid.map (fun r => u.cal.active.bias.get x + r.index * 2000000 + r.residual)).sum) valid.length
    let out := u.axisRecord sl x
    (valid = [] → out.value = none)
      ∧ (valid ≠ [] → out.value = some (m + roundDiv (m * look.g) 100000000 + look.o + u.cal.baseline.get x))
      ∧ out.count = list.length ∧ out.valid = valid.length ∧ out.index = (u.axes.get x).index
      ∧ out.satSeen = list.any (fun r => r.sat) ∧ out.limit = list.any (fun r => r.limit)
      ∧ (out.stepped = true ↔ ∃ r ∈ list, ∃ q ∈ list, r.index ≠ q.index)
      ∧ out.degraded = decide (1 ≤ valid.length ∧ valid.length ≤ 5)
      ∧ out.uncorrected = look.uncorrected ∧ out.tempClamp = look.tempClamp := by
  subst hlist hlook
  exact ⟨u.axisRecord_value_of_none_valid sl x, u.axisRecord_value_of_valid sl x, rfl, rfl, rfl, rfl, rfl,
    isStepped_iff _, isDegraded_eq _, rfl, rfl⟩

/-! ## Strobe 4 by the slot -/

/-- Strobe 4 completes the slot centred on the interval's boundary with the latest readings in it (R83, R85). -/
theorem State.strobeWork_four_completes {a : State} {sl : Slot} (codeX codeY codeZ : Int) (d : Bool)
    (hslot : a.asm.slot = some sl) (harrived : sl.arrived = true) :
    ∃ full : Slot, a.strobeWork 4 codeX codeY codeZ d = (a.strobed 4 codeX codeY codeZ d).complete full
      ∧ full.sn = sl.sn ∧ full.label = sl.label ∧ full.timeStep = sl.timeStep ∧ full.labelStep = sl.labelStep
      ∧ full.disturb = (sl.disturb || d)
      ∧ ∀ x, full.readings.get x
          = sl.readings.get x ++ ((a.strobeWork 4 codeX codeY codeZ d).axes.get x).latest.toList := by
  refine ⟨_, State.strobeWork_four codeX codeY codeZ d hslot harrived, rfl, rfl, rfl, rfl, ?_, fun x => ?_⟩
  · show (sl.disturb || d || d || d) = _
    simp only [Bool.or_assoc, Bool.or_self]
  · rw [State.strobeWork_latest]
    exact sl.withReadings_get (a.readingAt 4 codeX codeY codeZ d) x

/-- The completion is an append that closes the slot. -/
theorem State.complete_eq (u : State) (sl : Slot) :
    u.complete sl = State.appendRecord { u with asm := ⟨none, u.cal.version, false⟩ } (u.recordOf sl) := rfl

/-- With no slot centred on the interval's boundary strobe 4 forms no record, and no slot takes its readings (R83, R85). -/
theorem State.strobeWork_four_of_none {s : State} (codeX codeY codeZ : Int) (d : Bool)
    (h : ∀ sl, s.asm.slot = some sl → sl.arrived = false) :
    s.strobeWork 4 codeX codeY codeZ d = s.strobed 4 codeX codeY codeZ d
      ∧ (s.strobed 4 codeX codeY codeZ d).asm = s.asm := by
  have hslot : (s.strobed 4 codeX codeY codeZ d).asm.slot = s.asm.slot := by
    rw [State.strobed_slot, if_neg (by decide)]
    cases hs : s.asm.slot with
    | none => rfl
    | some sl => exact congrArg some (Slot.enlist_three_not (k := 4) rfl rfl rfl (h sl hs))
  refine ⟨?_, by rw [State.strobed_asm, hslot]⟩
  rw [State.strobeWork_eq, State.completeIfDue, hslot]
  cases hs : s.asm.slot with
  | none => rfl
  | some sl => simp only [h sl hs, Bool.and_false, Bool.false_eq_true, if_false]

theorem State.advance_version (s : State) (n : Nat) : (s.advance n).cal.version = s.cal.version := by
  unfold State.advance
  split <;> rfl

theorem State.advance_configDefault (s : State) (n : Nat) : (s.advance n).cal.configDefault = s.cal.configDefault := by
  unfold State.advance
  split <;> rfl

theorem State.advance_baseline (s : State) (n : Nat) : (s.advance n).cal.baseline = s.cal.baseline := by
  unfold State.advance
  split <;> rfl

/-- A lookup reads of a channel its health and its held value, and time leaves both alone. -/
theorem State.advance_lookup (s : State) (n : Nat) (r : Row) : r.lookup (s.advance n).thermTS = r.lookup s.thermTS :=
  r.lookup_congr (s.advance_thermometer_health (n := n) (ch := .TS)) (s.advance_thermometer_held (n := n) (ch := .TS))

/-! ## Late SET OFFSETs (R56, R86) -/

/-- The reply of a late SET OFFSET has not begun. -/
theorem State.lateSettings_not_begun {s : State} {x : Axis} {k : Nat} {q : Setting} (hq : q ∈ s.lateSettings x k) :
    (s.links.get q.link).replyBegun = false := by
  unfold State.lateSettings at hq
  split at hq
  · obtain ⟨t, ht, rfl⟩ := List.mem_map.mp hq
    have hcond := List.all_eq_true.mp List.all_takeWhile t ht
    simp only [Bool.and_eq_true, Bool.not_eq_true'] at hcond
    exact hcond.2
  · cases hq

/-- A command that is no SET OFFSET on this axis keeps its reply. -/
theorem reviseReplies_of_other_axis (a : Axis) (c : AxisChannel) (late : List Setting) (links : PerLink LinkState) {l : Link}
    {e : Executing} (he : (links.get l).executing = some e) (ha : axisOfCode (u8At e.command.payload 0) ≠ some a) :
    ((reviseReplies a c late links).get l).executing = some e := by
  induction late with
  | nil => exact he
  | cons t rest ih =>
    unfold reviseReplies
    by_cases h : l = t.link
    · subst h
      rw [PerLink.get_modify_same, LinkState.reviseReply, ih]
      exact congrArg some (if_neg fun hboth => ha hboth.2)
    · rw [PerLink.get_modify_other _ h]
      exact ih

section

variable {a : Axis} {l : Link} {e : Executing} (hk : e.command.kind = 0x40) (ha : axisOfCode (u8At e.command.payload 0) = some a)

include hk ha

/-- One late SET OFFSET puts its report into a reply that reports the axis. -/
theorem LinkState.reviseReply_report {k : LinkState} {r : Reply} (hr : r.payload ≠ [])
    (he : k.executing = some { e with reply := some r }) (p : List Byte) :
    (LinkState.reviseReply a p k).executing = some { e with reply := some { r with payload := p } } := by
  have hmatch : Kind.ofByte e.command.kind = some .setOffset ∧ axisOfCode (u8At e.command.payload 0) = some a :=
    ⟨by rw [hk]; decide, ha⟩
  rw [LinkState.reviseReply, he]
  refine congrArg some ((if_pos hmatch).trans ?_)
  dsimp only [Option.map]
  rw [if_neg hr]

/-- Whatever SET OFFSETs are late, such a reply stays one that reports the axis. -/
theorem reviseReplies_report (c : AxisChannel) (late : List Setting) {links : PerLink LinkState} {r : Reply}
    (hr : r.payload ≠ []) (he : (links.get l).executing = some { e with reply := some r }) :
    ∃ p, p ≠ [] ∧ ((reviseReplies a c late links).get l).executing
      = some { e with reply := some { r with payload := p } } := by
  induction late with
  | nil => exact ⟨r.payload, hr, he⟩
  | cons t rest ih =>
    obtain ⟨p, hp, hrest⟩ := ih
    unfold reviseReplies
    by_cases h : l = t.link
    · subst h
      rw [PerLink.get_modify_same]
      exact ⟨_, List.cons_ne_nil _ _, LinkState.reviseReply_report hk ha (r := { r with payload := p }) hp hrest _⟩
    · rw [PerLink.get_modify_other _ h]
      exact ⟨p, hp, hrest⟩

/-- The latest late SET OFFSET of a link gives its reply the report of the axis after the strobe, the late ones before it and
itself (R56). -/
theorem reviseReplies_latest (c : AxisChannel) {pre suf : List Setting} {q : Setting} (hpre : ∀ p ∈ pre, p.link ≠ q.link)
    {links : PerLink LinkState} {r : Reply} (hr : r.payload ≠ [])
    (he : (links.get q.link).executing = some { e with reply := some r }) :
    ((reviseReplies a c (pre ++ q :: suf) links).get q.link).executing
      = some { e with reply := some { r with payload := (c.setAll (q :: suf)).offsetPayload } } := by
  induction pre with
  | nil =>
    obtain ⟨p, hp, hsuf⟩ := reviseReplies_report hk ha c suf hr he
    show (((reviseReplies a c suf links).modify q.link _).get q.link).executing = _
    rw [PerLink.get_modify_same]
    exact LinkState.reviseReply_report hk ha (r := { r with payload := p }) hp hsuf _
  | cons t rest ih =>
    show (((reviseReplies a c (rest ++ q :: suf) links).modify t.link _).get q.link).executing = _
    rw [PerLink.get_modify_other _ (hpre t List.mem_cons_self).symm]
    exact ih (fun p hp => hpre p (List.mem_cons_of_mem t hp))

end

/-- The channel of each axis between the strobe's work and the late SET OFFSETs. -/
def State.strobedChannel (s : State) (k : Nat) (codeX codeY codeZ : Int) (d : Bool) (x : Axis) : AxisChannel :=
  (s.channelAt x k).strobe x s.epoch.sn k ((⟨codeX, codeY, codeZ⟩ : PerAxis Int).get x) d

theorem State.strobeWork_axes_setAll (s : State) (k : Nat) (codeX codeY codeZ : Int) (d : Bool) (x : Axis) :
    (s.strobeWork k codeX codeY codeZ d).axes.get x
      = (s.strobedChannel k codeX codeY codeZ d x).setAll (s.lateSettings x k) := by
  rw [State.strobeWork_axes]
  cases x <;> rfl

/-- The replies after a strobe, axis by axis. -/
theorem State.strobed_links_eq (s : State) (k : Nat) (codeX codeY codeZ : Int) (d : Bool) :
    (s.strobed k codeX codeY codeZ d).links
      = reviseReplies .Z (s.strobedChannel k codeX codeY codeZ d .Z) (s.lateSettings .Z k)
          (reviseReplies .Y (s.strobedChannel k codeX codeY codeZ d .Y) (s.lateSettings .Y k)
            (reviseReplies .X (s.strobedChannel k codeX codeY codeZ d .X) (s.lateSettings .X k) s.links)) := rfl

/-- A link that no late SET OFFSET names keeps its executing command through the strobe. -/
theorem State.strobed_executing_of_other {s : State} {k : Nat} {l : Link} (codeX codeY codeZ : Int) (d : Bool)
    (h : ∀ x, ∀ q ∈ s.lateSettings x k, q.link ≠ l) :
    ((s.strobed k codeX codeY codeZ d).links.get l).executing = (s.links.get l).executing := by
  rw [State.strobed_links_eq, reviseReplies_other _ _ _ (h .Z), reviseReplies_other _ _ _ (h .Y),
    reviseReplies_other _ _ _ (h .X)]

/-- The latest late SET OFFSET of a link on axis x gives its reply its report; the other axes leave it alone. -/
theorem State.strobed_executing_latest {s : State} {k : Nat} {x : Axis} {pre suf : List Setting} {q : Setting} {e : Executing}
    {r : Reply} (codeX codeY codeZ : Int) (d : Bool) (hlate : s.lateSettings x k = pre ++ q :: suf)
    (hpre : ∀ p ∈ pre, p.link ≠ q.link) (he : (s.links.get q.link).executing = some e) (hreply : e.reply = some r)
    (hr : r.payload ≠ []) (hk : e.command.kind = 0x40) (ha : axisOfCode (u8At e.command.payload 0) = some x) :
    ((s.strobed k codeX codeY codeZ d).links.get q.link).executing
      = some { e with reply := some { r with
          payload := ((s.strobedChannel k codeX codeY codeZ d x).setAll (q :: suf)).offsetPayload } } := by
  have he' : (s.links.get q.link).executing = some { e with reply := some r } := by rw [he, ← hreply]
  have hother : ∀ y, x ≠ y → axisOfCode (u8At e.command.payload 0) ≠ some y := fun y hne heq =>
    hne (Option.some.inj (ha.symm.trans heq))
  have hlatest := fun (c : AxisChannel) {links : PerLink LinkState}
      (hl : (links.get q.link).executing = some { e with reply := some r }) =>
    reviseReplies_latest hk ha c (suf := suf) hpre hr hl
  rw [State.strobed_links_eq]
  cases x
  · rw [hlate]
    exact reviseReplies_of_other_axis .Z _ _ _
      (reviseReplies_of_other_axis .Y _ _ _ (hlatest _ he') (hother .Y (by decide))) (hother .Z (by decide))
  · rw [hlate]
    exact reviseReplies_of_other_axis .Z _ _ _
      (hlatest _ (reviseReplies_of_other_axis .X _ _ _ he' (hother .X (by decide)))) (hother .Z (by decide))
  · rw [hlate]
    exact hlatest _ (reviseReplies_of_other_axis .Y _ _ _
      (reviseReplies_of_other_axis .X _ _ _ he' (hother .X (by decide))) (hother .Y (by decide)))

end Sys2Proof.Machine

namespace Sys2Proof.Proofs

open Sys2Proof.Machine

/-- Settles O12. The slot decides whether a record completes; the late SET OFFSETs are those of `State.lateSettings`, and
their replies those of `State.strobed_executing_latest`. -/
theorem strobeFourCompletesTheRecord : Obligations.StrobeFourCompletesTheRecord := by
  have hreplies : ∀ (a : State) (codeX codeY codeZ : Int) (d : Bool) (l : Link), ∃ x,
      (a.strobed 4 codeX codeY codeZ d).links.get l = { a.links.get l with executing := x }
        ∧ (a.earlier = ⟨[], [], []⟩ → x = (a.links.get l).executing) := by
    intro a codeX codeY codeZ d l
    refine ⟨_, a.strobed_links 4 codeX codeY codeZ d l, fun hnone => ?_⟩
    rw [State.strobed_links_of_no_late codeX codeY codeZ d (fun x => .inr (by rw [hnone]; cases x <;> rfl))]
  refine ⟨?completes, ?nothing, ?late, fun s n hn => by rw [State.advance_of_pos hn]; rfl⟩
  case completes =>
    intro s codeX codeY codeZ d sl lab hk hw hslot harrived hlabel
    generalize ha : s.advance (4500000 - s.epoch.tickPos) = a
    have hstrobed : a.asm.slot = some sl := by rw [← ha, State.advance_asm]; exact hslot
    obtain ⟨full, hwork, hsn, hfullLabel, htime, hstep, hdisturb, hlist⟩ :=
      State.strobeWork_four_completes codeX codeY codeZ d hstrobed harrived
    have hexec := exec_strobe codeX codeY codeZ d hk hw
    rw [show s.advance (500000 + 1000000 * 4 - s.epoch.tickPos) = a from ha] at hexec
    have hframe := a.strobed_frame 4 codeX codeY codeZ d
    have hring := State.strobed_ring a 4 codeX codeY codeZ d
    have hasm := a.strobed_asm 4 codeX codeY codeZ d
    have hreply := hreplies a codeX codeY codeZ d
    generalize a.strobed 4 codeX codeY codeZ d = u at *
    generalize a.strobeWork 4 codeX codeY codeZ d = t at *
    obtain ⟨asm, hcomplete⟩ : ∃ asm, t = State.appendRecord { u with asm := asm } (u.recordOf full) :=
      ⟨_, hwork.trans (u.complete_eq full)⟩
    have haxes : t.axes = u.axes := by rw [hcomplete]; exact (State.appendRecord_keeps _ _).2.2.1
    have hversion : u.cal.version = s.cal.version := by rw [hframe.cal, ← ha, State.advance_version]
    have hTS : u.thermTS = (s.advance (4500000 - s.epoch.tickPos)).thermTS := by rw [hframe.thermTS, ha]
    have hTO : u.thermTO = (s.advance (4500000 - s.epoch.tickPos)).thermTO := by rw [hframe.thermTO, ha]
    have hdisc : u.disc = s.disc := by rw [hframe.disc, ← ha, State.advance_disc]
    have hasm' : u.asm.versionLast = s.asm.versionLast ∧ u.asm.baselineChange = s.asm.baselineChange := by
      rw [hasm, ← ha, State.advance_asm]
      exact ⟨rfl, rfl⟩
    have hhealth := fun ch => s.advance_thermometer_health (n := 4500000 - s.epoch.tickPos) (ch := ch)
    have hheld := fun ch => s.advance_thermometer_held (n := 4500000 - s.epoch.tickPos) (ch := ch)
    refine ⟨t, u.recordOf full, hexec, ?asm, ?ring, fun l => ?links, hsn, ?label, congrArg (·.clock) hdisc,
      congrArg (·.u) hdisc, hversion, ?tsHealth, ?toHealth, ?tsNone, ?tsSome, ?toNone, ?toSome, htime, hstep, hdisturb,
      ?calib, hasm'.2, ?default, fun x => ?fields⟩
    case asm => rw [hwork, State.complete_asm, hversion]
    case ring =>
      rw [hcomplete]
      exact State.appendRecord_ring_congr (u := { u with asm := asm }) hring _
    case links =>
      obtain ⟨f, hf, hlinks⟩ := a.appendRecord_links (u.recordOf full)
      obtain ⟨x, hx, hsame⟩ := hreply l
      refine ⟨x, ?_, fun hnone => ?_⟩
      · rw [hcomplete, hlinks a rfl, hlinks { u with asm := asm } hring, PerLink.get_map, PerLink.get_map, hx, hf]
      · rw [State.appendRecord_executing]
        exact hsame hnone
    case label =>
      show full.label.getD _ = lab
      rw [hfullLabel, hlabel]
      rfl
    case tsHealth => exact (congrArg _ hTS).trans (hhealth .TS)
    case toHealth => exact (congrArg _ hTO).trans (hhealth .TO)
    case tsNone =>
      intro hnone
      exact (congrArg _ hTS).trans (Thermometer.offered_of_health_none ((hhealth .TS).trans hnone))
    case tsSome =>
      intro hsome
      exact (congrArg _ hTS).trans
        ((Thermometer.offered_of_health_ne_none (fun h => hsome ((hhealth .TS).symm.trans h))).trans (hheld .TS))
    case toNone =>
      intro hnone
      exact (congrArg _ hTO).trans (Thermometer.offered_of_health_none ((hhealth .TO).trans hnone))
    case toSome =>
      intro hsome
      exact (congrArg _ hTO).trans
        ((Thermometer.offered_of_health_ne_none (fun h => hsome ((hhealth .TO).symm.trans h))).trans (hheld .TO))
    case calib =>
      show (!decide (u.cal.version = u.asm.versionLast)) = _
      rw [hversion, hasm'.1, decide_not]
    case default =>
      show u.cal.configDefault = _
      rw [hframe.cal, ← ha, State.advance_configDefault]
    case fields =>
      have hactive : u.cal.active = s.cal.active := by rw [hframe.cal, ← ha, State.advance_cal_active]
      have hbase : u.cal.baseline = s.cal.baseline := by rw [hframe.cal, ← ha, State.advance_baseline]
      have hlook : (u.cal.active.table.axisRow x).lookup u.thermTS = (s.cal.active.table.axisRow x).lookup s.thermTS := by
        rw [hactive, hTS, State.advance_lookup]
      have hfields := State.axisRecord_fields (hlist x) hlook
      have hout : (u.recordOf full).axes.get x = u.axisRecord full x := by cases x <;> rfl
      rw [hactive, hbase] at hfields
      rw [haxes] at hfields ⊢
      rw [hout]
      cases x <;> exact hfields
  case nothing =>
    intro s codeX codeY codeZ d hk hw a hno
    obtain ⟨hwork, hasm⟩ := State.strobeWork_four_of_none (s := a) codeX codeY codeZ d
      (by rw [State.advance_asm]; exact hno)
    refine ⟨_, (exec_strobe codeX codeY codeZ d hk hw).trans (congrArg _ hwork), hasm,
      State.strobed_ring a 4 codeX codeY codeZ d, hreplies a codeX codeY codeZ d⟩
  case late =>
    intro s codeX codeY codeZ d hk hw a
    have hexecuting : ∀ l, ((a.strobeWork 4 codeX codeY codeZ d).links.get l).executing
        = ((a.strobed 4 codeX codeY codeZ d).links.get l).executing := by
      intro l
      rcases a.strobeWork_append 4 codeX codeY codeZ d with heq | ⟨sl, asm, -, -, -, -, heq⟩
      · rw [heq]
      · rw [heq, State.appendRecord_executing]
    refine ⟨_, ⟨a.lateSettings .X 4, a.lateSettings .Y 4, a.lateSettings .Z 4⟩, exec_strobe codeX codeY codeZ d hk hw,
      fun l hother => ?others, fun x => ?axis⟩
    case others =>
      rw [hexecuting]
      exact State.strobed_executing_of_other codeX codeY codeZ d fun x => match x with
        | .X => hother .X
        | .Y => hother .Y
        | .Z => hother .Z
    case axis =>
      have hlate : (⟨a.lateSettings .X 4, a.lateSettings .Y 4, a.lateSettings .Z 4⟩ : PerAxis (List Setting)).get x
          = a.lateSettings x 4 := by cases x <;> rfl
      rw [hlate]
      obtain ⟨rest, hrest⟩ := a.lateSettings_prefix x 4
      refine ⟨rest, hrest.symm, fun q hq bytes htx => ?begun, fun t0 ht0 => ?_⟩
      case begun =>
        have hnot := State.lateSettings_not_begun hq
        rw [LinkState.replyBegun, htx] at hnot
        cases hnot
      intro after
      have hafter : ∀ qs, after qs = (t0.axes.get x).setAll qs := fun qs => rfl
      have hchannel : t0.axes.get x = a.strobedChannel 4 codeX codeY codeZ d x := by
        have hexec := exec_strobe (s := { s with
          earlier := ⟨[], [], []⟩
          axes := s.axes.modify x (fun c => ((a.lateSettings x 4).getLast?.map (fun q => q.before)).getD c) })
          codeX codeY codeZ d hk hw
        obtain rfl := Host.Outcome.next.inj (hexec.symm.trans ht0)
        rw [State.strobeWork_axes_of_no_late codeX codeY codeZ d (.inr ?noEarlier), State.advance_axes, State.advance_epoch_sn,
          PerAxis.get_modify_same]
        case noEarlier =>
          rw [State.advance_earlier]
          split <;> cases x <;> rfl
        rw [State.strobedChannel, State.channelAt, State.advance_axes, State.advance_epoch_sn]
      rw [hafter, hchannel]
      refine ⟨a.strobeWork_axes_setAll 4 codeX codeY codeZ d x, fun pre q suf e r hsplit hpre he hr hne hkind hx => ?_⟩
      rw [hexecuting, hafter, hchannel]
      exact State.strobed_executing_latest codeX codeY codeZ d hsplit hpre he hr hne hkind (hx ▸ axisOfCode_axisByte x)

end Sys2Proof.Proofs
end

section
/-! SUPPORT. The four edit writes (R109 to R111): the refusals for the edit state, what each write's checks give, and the
knots and bands of a row after a write. -/

namespace Sys2Proof.Machine

/-! ## The edit after time has passed -/

/-- Time runs the idle timer alone: the holder keeps EDITING and the shadow (R108). -/
theorem State.advance_editing {s : State} {l : Link} {sh : CalSet} {idle : Nat} (w : Nat)
    (h : s.cal.edit = .editing l sh idle) : ∃ left, (s.advance w).cal.edit = .editing l sh left := by
  unfold State.advance
  split
  · exact ⟨idle, h⟩
  · exact ⟨idle - w, by simp only [h, Edit.elapse]⟩

/-! ## The refusals for the edit state (Table 6-2) -/

section

variable {u : State} {l h : Link} {sh : CalSet} {idle : Nat} {broken : Bool} (f : CalSet → Option CalSet)

theorem State.editWrite_of_none (hedit : u.cal.edit = .none) : u.editWrite l f = u.answer l .noEdit [] := by
  simp only [State.editWrite, hedit]

theorem State.editWrite_of_other (hother : h ≠ l) (hedit : u.cal.edit = .editing h sh idle) :
    u.editWrite l f = u.answer l .noEdit [] := by
  simp only [State.editWrite, hedit, if_neg hother]

theorem State.editWrite_of_committing_holder (hedit : u.cal.edit = .committing l sh broken) :
    u.editWrite l f = u.answer l .busy [] := by
  simp only [State.editWrite, hedit, if_true]

theorem State.editWrite_of_committing_other (hother : h ≠ l) (hedit : u.cal.edit = .committing h sh broken) :
    u.editWrite l f = u.answer l .noEdit [] := by
  simp only [State.editWrite, hedit, if_neg hother]

end

/-- Each of the four edit writes is the shared edit write with checks of its own. -/
theorem State.takeKind_edit_write {k : Kind} (hk : k ∈ [Kind.writeKnot, .writeBand, .writeBias, .writeHoldoverRate])
    (tag : Byte) (p : List Byte) :
    ∃ f : CalSet → Option CalSet, ∀ (u : State) (l : Link), u.takeKind l k tag p = u.editWrite l f := by
  simp only [List.mem_cons, List.not_mem_nil, or_false] at hk
  obtain rfl | rfl | rfl | rfl := hk
  · exact ⟨fun c => c.writeKnot p, fun _ _ => rfl⟩
  · exact ⟨fun c => c.writeBand p, fun _ _ => rfl⟩
  · exact ⟨fun c => c.writeBias p, fun _ _ => rfl⟩
  · exact ⟨fun c => c.writeHoldover p, fun _ _ => rfl⟩

/-! ## Knots and bands after a write -/

theorem Vector.getD_setIfInBounds {α : Type} {n : Nat} (v : Vector α n) {k : Nat} (hk : k < n) (x d : α) (i : Nat) :
    (v.setIfInBounds k x).getD i d = if i = k then x else v.getD i d := by
  simp only [Vector.getD, Vector.toArray_setIfInBounds, Array.getD_eq_getD_getElem?, Array.getElem?_setIfInBounds,
    Vector.size_toArray]
  by_cases hi : i = k
  · subst hi
    simp [hk]
  · simp [hi, Ne.symm hi]

theorem Row.knot_setKnot (r : Row) {k : Nat} (hk : k ≤ 16) (v : Knot) (i : Nat) :
    (r.setKnot k v).knot i = if i = k then v else r.knot i :=
  Vector.getD_setIfInBounds r.knots (Nat.lt_succ_of_le hk) v _ i

theorem Row.band_setBand (r : Row) {b : Nat} (hb : b ≤ 15) (m : BandMode) (i : Nat) :
    (r.setBand b m).band i = if i = b then m else r.band i :=
  Vector.getD_setIfInBounds r.bands (Nat.lt_succ_of_le hb) m _ i

/-! ## What each write's checks give -/

/-- R109's checks on the two terms of a knot. -/
theorem knotAllowed_iff (row : RowName) (g o : Int) :
    knotAllowed row g o = true ↔
      (-1000000 ≤ g ∧ g ≤ 1000000) ∧ (-1000000 ≤ o ∧ o ≤ 1000000) ∧ (row = .OSC → g = 0) := by
  simp only [knotAllowed, Bool.and_eq_true, within_iff, Bool.or_eq_true, Bool.not_eq_true', decide_eq_false_iff_not,
    decide_eq_true_eq, ← Decidable.imp_iff_not_or, and_assoc, termLimit]

/-- The fields of a WRITE KNOT payload. -/
theorem s32At_of_write_knot (row k : Byte) (g o : Word) :
    s32At (row :: k :: (be32 g ++ be32 o)) 2 = g.toInt ∧ s32At (row :: k :: (be32 g ++ be32 o)) 6 = o.toInt := by
  constructor
  · rw [s32At, u32At_cons, u32At_cons, u32At_be32]
  · have hsecond : u32At (row :: k :: (be32 g ++ be32 o)) 6 = u32At (be32 o ++ []) 0 := by
      rw [List.append_nil]
      exact u32At_append (row :: k :: be32 g) (be32 o) 6 rfl
    rw [s32At, hsecond, u32At_be32]

theorem CalSet.writeKnot_eq (c : CalSet) (row : RowName) (k : Byte) (g o : Word) :
    c.writeKnot (rowByte row :: k :: (be32 g ++ be32 o)) =
      if k.toNat ≤ 16 && knotAllowed row g.toInt o.toInt then
        some { c with table := c.table.setRow row ((c.table.row row).setKnot k.toNat ⟨g.toInt, o.toInt⟩) }
      else none := by
  obtain ⟨hg, ho⟩ := s32At_of_write_knot (rowByte row) k g o
  have hrow : rowOfCode (u8At (rowByte row :: k :: (be32 g ++ be32 o)) 0) = some row := rowOfCode_rowByte row
  simp only [CalSet.writeKnot, hg, ho, hrow]
  rfl

theorem CalSet.writeKnot_undefined (c : CalSet) {row : Byte} (p : List Byte) (h : 3 < row.toNat) :
    c.writeKnot (row :: p) = none := by
  have hrow : rowOfCode (u8At (row :: p) 0) = none := rowOfCode_undefined row h
  simp only [CalSet.writeKnot, hrow]

/-- The mode codes of Table 4-6. -/
theorem bandOfCode_of_le {code : Byte} (h : code.toNat ≤ 2) :
    bandOfCode code = some (if code = 0 then .interp else if code = 1 then .hold else .void) := by
  obtain rfl | rfl | rfl : code = 0 ∨ code = 1 ∨ code = 2 := by bv_omega
  all_goals rfl

theorem bandOfCode_undefined {code : Byte} (h : 2 < code.toNat) : bandOfCode code = none := by
  unfold bandOfCode
  split
  · omega
  · omega
  · omega
  · rfl

theorem CalSet.writeBand_eq (c : CalSet) (row : RowName) (b : Byte) {code : Byte} {m : BandMode}
    (hm : bandOfCode code = some m) :
    c.writeBand [rowByte row, b, code] =
      if b.toNat ≤ 15 then some { c with table := c.table.setRow row ((c.table.row row).setBand b.toNat m) }
      else none := by
  have hrow : rowOfCode (u8At [rowByte row, b, code] 0) = some row := rowOfCode_rowByte row
  have hmode : bandOfCode (u8At [rowByte row, b, code] 2) = some m := hm
  simp only [CalSet.writeBand, hrow, hmode]
  rfl

theorem CalSet.writeBand_of_mode_undefined (c : CalSet) (row : RowName) (b : Byte) {code : Byte} (h : 2 < code.toNat) :
    c.writeBand [rowByte row, b, code] = none := by
  have hrow : rowOfCode (u8At [rowByte row, b, code] 0) = some row := rowOfCode_rowByte row
  have hmode : bandOfCode (u8At [rowByte row, b, code] 2) = none := bandOfCode_undefined h
  simp only [CalSet.writeBand, hrow, hmode]

theorem CalSet.writeBand_undefined (c : CalSet) {row : Byte} (p : List Byte) (h : 3 < row.toNat) :
    c.writeBand (row :: p) = none := by
  have hrow : rowOfCode (u8At (row :: p) 0) = none := rowOfCode_undefined row h
  simp only [CalSet.writeBand, hrow]

theorem CalSet.writeBias_eq (c : CalSet) (x : Axis) (v : Word) :
    c.writeBias (axisByte x :: be32 v) =
      if within biasLimit v.toInt then some { c with bias := c.bias.modify x (fun _ => v.toInt) } else none := by
  have hvalue : s32At (axisByte x :: be32 v) 1 = v.toInt := by
    rw [s32At, u32At_cons, ← List.append_nil (be32 v), u32At_be32]
  have haxis : axisOfCode (u8At (axisByte x :: be32 v) 0) = some x := axisOfCode_axisByte x
  simp only [CalSet.writeBias, hvalue, haxis]

theorem axisOfCode_undefined {b : Byte} (h : 2 < b.toNat) : axisOfCode b = none := by
  unfold axisOfCode
  split
  · omega
  · omega
  · omega
  · rfl

theorem CalSet.writeBias_undefined (c : CalSet) {x : Byte} (p : List Byte) (h : 2 < x.toNat) :
    c.writeBias (x :: p) = none := by
  have haxis : axisOfCode (u8At (x :: p) 0) = none := axisOfCode_undefined h
  simp only [CalSet.writeBias, haxis]

theorem CalSet.writeHoldover_eq (c : CalSet) (v : Half) :
    c.writeHoldover (be16 v) = if v.toNat ≤ holdoverLimit then some { c with h := v.toNat } else none := by
  have hvalue : u16At (be16 v) 0 = v := by rw [← List.append_nil (be16 v), u16At_be16]
  simp only [CalSet.writeHoldover, hvalue]

/-! ## The commands -/

section

variable {s : State} {w : Nat} {l : Link} (tag : Byte) (hw : s.takesAt w l)
include hw

theorem exec_writeKnot_taken (row k : Byte) (g o : Word) :
    exec (.writeKnot w l tag (row :: k :: (be32 g ++ be32 o))) s =
      .next (((s.advance w).onLink l (LinkState.enter ⟨0x51, tag, row :: k :: (be32 g ++ be32 o)⟩)).editWrite l
        (fun c => c.writeKnot (row :: k :: (be32 g ++ be32 o)))) :=
  exec_arrival_kind (c := ⟨0x51, tag, row :: k :: (be32 g ++ be32 o)⟩) (k := .writeKnot) rfl hw rfl rfl

theorem exec_writeBand_taken (row b code : Byte) :
    exec (.writeBand w l tag [row, b, code]) s =
      .next (((s.advance w).onLink l (LinkState.enter ⟨0x52, tag, [row, b, code]⟩)).editWrite l
        (fun c => c.writeBand [row, b, code])) :=
  exec_arrival_kind (c := ⟨0x52, tag, [row, b, code]⟩) (k := .writeBand) rfl hw rfl rfl

theorem exec_writeBias_taken (x : Byte) (v : Word) :
    exec (.writeBias w l tag (x :: be32 v)) s =
      .next (((s.advance w).onLink l (LinkState.enter ⟨0x53, tag, x :: be32 v⟩)).editWrite l
        (fun c => c.writeBias (x :: be32 v))) :=
  exec_arrival_kind (c := ⟨0x53, tag, x :: be32 v⟩) (k := .writeBias) rfl hw rfl rfl

theorem exec_writeHoldoverRate_taken (v : Half) :
    exec (.writeHoldoverRate w l tag (be16 v)) s =
      .next (((s.advance w).onLink l (LinkState.enter ⟨0x54, tag, be16 v⟩)).editWrite l
        (fun c => c.writeHoldover (be16 v))) :=
  exec_arrival_kind (c := ⟨0x54, tag, be16 v⟩) (k := .writeHoldoverRate) rfl hw rfl rfl

end

end Sys2Proof.Machine

namespace Sys2Proof.Proofs

open Sys2Proof.Machine

/-- Settles O47: the four writes share one test of the edit state, made before the check of their own values. -/
theorem editWritesNeedTheHolder : Obligations.EditWritesNeedTheHolder := by
  intro s i w l c k harrival hw hkind hk hlength a
  obtain ⟨f, hf⟩ := State.takeKind_edit_write hk c.tag c.payload
  have hrun : exec i s = .next ((a.onLink l (LinkState.enter c)).editWrite l f) := by
    rw [exec_arrival_kind harrival hw hkind hlength, hf]
  have hcal : (a.onLink l (LinkState.enter c)).cal = a.cal := a.onLink_cal l _
  rw [hrun]
  refine ⟨fun hedit => ?none, fun h sh idle hother hedit => ?other, fun sh b hedit => ?committingHolder,
    fun h sh b hother hedit => ?committingOther⟩
  case none => rw [State.editWrite_of_none f (hcal ▸ hedit), State.enter_answer]
  case other => rw [State.editWrite_of_other f hother (hcal ▸ hedit), State.enter_answer]
  case committingHolder => rw [State.editWrite_of_committing_holder f (hcal ▸ hedit), State.enter_answer]
  case committingOther => rw [State.editWrite_of_committing_other f hother (hcal ▸ hedit), State.enter_answer]

/-- Settles O48, by the outcome of the checks of WRITE KNOT. -/
theorem writeKnotChangesOneKnotOfTheShadow : Obligations.WriteKnotChangesOneKnotOfTheShadow := by
  intro s w l tag k g o sh idle hw hs a edit inRange
  obtain ⟨left, hedit⟩ := State.advance_editing w hs
  refine ⟨?defined, ?undefined⟩
  case undefined =>
    intro row hrow p
    rw [exec_writeKnot_taken tag hw, a.editWrite_rejected l _ sh left _ hedit (sh.writeKnot_undefined _ hrow)]
  case defined =>
    intro row p run good
    have hrun : run = _ := exec_writeKnot_taken tag hw (rowByte row) k g o
    have hzero : g.toInt = 0 ↔ g = 0 := BitVec.toInt_inj (y := 0)
    have hgood : good ↔ (k.toNat ≤ 16 && knotAllowed row g.toInt o.toInt) = true := by
      rw [Bool.and_eq_true, decide_eq_true_eq, knotAllowed_iff, hzero]
    rw [hrun]
    refine ⟨fun hallowed => ?written, fun hrefused => ?refused⟩
    case written =>
      have hwrite := (sh.writeKnot_eq row k g o).trans (if_pos (hgood.mp hallowed))
      refine ⟨_, congrArg _ (a.editWrite_accepted l _ sh _ left _ hedit hwrite), rfl, rfl, fun r => ?_⟩
      simp only [Table.row_setRow]
      by_cases hr : r = row
      · subst hr
        simp only [if_true, true_and]
        exact ⟨rfl, Row.knot_setKnot _ hallowed.1 _⟩
      · simp only [hr, false_and, if_false]
        exact ⟨trivial, fun _ => trivial⟩
    case refused =>
      have hwrite := (sh.writeKnot_eq row k g o).trans (if_neg (mt hgood.mpr hrefused))
      exact congrArg _ (a.editWrite_rejected l _ sh left _ hedit hwrite)

/-- Settles O49, by the outcome of the checks of WRITE BAND. -/
theorem writeBandChangesOneBandOfTheShadow : Obligations.WriteBandChangesOneBandOfTheShadow := by
  intro s w l tag b code sh idle hw hs a edit mode
  obtain ⟨left, hedit⟩ := State.advance_editing w hs
  refine ⟨?defined, ?undefined⟩
  case undefined =>
    intro row hrow
    rw [exec_writeBand_taken tag hw, a.editWrite_rejected l _ sh left _ hedit (sh.writeBand_undefined _ hrow)]
  case defined =>
    intro row p run good
    have hrun : run = _ := exec_writeBand_taken tag hw (rowByte row) b code
    rw [hrun]
    refine ⟨fun hgood => ?written, fun hbad => ?refused⟩
    case written =>
      have hwrite := (sh.writeBand_eq row b (bandOfCode_of_le hgood.2)).trans (if_pos hgood.1)
      refine ⟨_, congrArg _ (a.editWrite_accepted l _ sh _ left _ hedit hwrite), rfl, rfl, fun r => ?_⟩
      simp only [Table.row_setRow]
      by_cases hr : r = row
      · subst hr
        simp only [if_true, true_and]
        exact ⟨rfl, Row.band_setBand _ hgood.1 _⟩
      · simp only [hr, false_and, if_false]
        exact ⟨trivial, fun _ => trivial⟩
    case refused =>
      have hwrite : sh.writeBand [rowByte row, b, code] = none := by
        by_cases hcode : code.toNat ≤ 2
        · exact (sh.writeBand_eq row b (bandOfCode_of_le hcode)).trans (if_neg fun hb => hbad ⟨hb, hcode⟩)
        · exact sh.writeBand_of_mode_undefined row b (Nat.not_le.mp hcode)
      exact congrArg _ (a.editWrite_rejected l _ sh left _ hedit hwrite)

/-- Settles O50, by the outcome of the checks of each write. -/
theorem writeBiasAndRateChangeTheShadow : Obligations.WriteBiasAndRateChangeTheShadow := by
  intro s w l tag sh idle hw hs a edit
  obtain ⟨left, hedit⟩ := State.advance_editing w hs
  refine ⟨?bias, ?axisUndefined, fun v => ⟨fun hgood => ?rate, fun hbad => ?rateRefused⟩⟩
  case bias =>
    intro x v p good
    rw [exec_writeBias_taken tag hw]
    refine ⟨fun hgood => ?written, fun hbad => ?refused⟩
    case written =>
      have hwrite := (sh.writeBias_eq x v).trans (if_pos (within_iff.mpr hgood))
      rw [a.editWrite_accepted l _ sh _ left _ hedit hwrite]
    case refused =>
      have hwrite := (sh.writeBias_eq x v).trans (if_neg (mt within_iff.mp hbad))
      rw [a.editWrite_rejected l _ sh left _ hedit hwrite]
  case axisUndefined =>
    intro x v hx
    rw [exec_writeBias_taken tag hw, a.editWrite_rejected l _ sh left _ hedit (sh.writeBias_undefined _ hx)]
  case rate =>
    have hwrite := (sh.writeHoldover_eq v).trans (if_pos hgood)
    rw [exec_writeHoldoverRate_taken tag hw, a.editWrite_accepted l _ sh _ left _ hedit hwrite]
  case rateRefused =>
    have hwrite := (sh.writeHoldover_eq v).trans (if_neg (Nat.not_le.mpr hbad))
    rw [exec_writeHoldoverRate_taken tag hw, a.editWrite_rejected l _ sh left _ hedit hwrite]

end Sys2Proof.Proofs
end

section
/-! SUPPORT. COMMIT, ABANDON, LOCK CALIBRATION, READ TABLE and SET BASELINE (R80, R81, R112, R115, R117, R118): what each
does in each edit state, and the state in which its command stands. -/

namespace Sys2Proof.Machine

/-! ## What each does, by the edit state -/

section

variable {u : State} {l h : Link} {sh : CalSet} {idle : Nat} {broken : Bool}

theorem State.takeCommit_of_none (hedit : u.cal.edit = .none) : u.takeCommit l = u.answer l .noEdit [] := by
  simp only [State.takeCommit, hedit]

theorem State.takeCommit_of_holder (hedit : u.cal.edit = .editing l sh idle) :
    u.takeCommit l = (u.setEdit (.committing l sh false)).requestWrite .commit := by
  simp only [State.takeCommit, hedit, if_true]

theorem State.takeCommit_of_other (hother : h ≠ l) (hedit : u.cal.edit = .editing h sh idle) :
    u.takeCommit l = u.answer l .noEdit [] := by
  simp only [State.takeCommit, hedit, if_neg hother]

theorem State.takeCommit_of_committing (hedit : u.cal.edit = .committing h sh broken) :
    u.takeCommit l = u.answer l .busy [] := by
  simp only [State.takeCommit, hedit]

theorem State.takeAbandon_of_none (hedit : u.cal.edit = .none) : u.takeAbandon l = u.answer l .noEdit [] := by
  simp only [State.takeAbandon, hedit]

theorem State.takeAbandon_of_holder (hedit : u.cal.edit = .editing l sh idle) :
    u.takeAbandon l = (u.setEdit .none).answer l .ok (be16 u.cal.version) := by
  simp only [State.takeAbandon, hedit, if_true]

theorem State.takeAbandon_of_other (hother : h ≠ l) (hedit : u.cal.edit = .editing h sh idle) :
    u.takeAbandon l = u.answer l .noEdit [] := by
  simp only [State.takeAbandon, hedit, if_neg hother]

theorem State.takeAbandon_of_committing (hedit : u.cal.edit = .committing h sh broken) :
    u.takeAbandon l = u.answer l .busy [] := by
  simp only [State.takeAbandon, hedit]

theorem State.takeLock_of_none (hedit : u.cal.edit = .none) :
    u.takeLock l = State.answer { u with cal := { u.cal with lock := true } } l .ok [] := by
  simp only [State.takeLock, hedit]

theorem State.takeLock_of_editing (hedit : u.cal.edit = .editing h sh idle) :
    u.takeLock l = u.answer l .busy [] := by
  simp only [State.takeLock, hedit]

theorem State.takeLock_of_committing (hedit : u.cal.edit = .committing h sh broken) :
    u.takeLock l = u.answer l .busy [] := by
  simp only [State.takeLock, hedit]

theorem State.readShadow_of_holder (p : List Byte) (hedit : u.cal.edit = .editing l sh idle) :
    u.readShadow l p = (u.setEdit (.editing l sh idleTicks)).answerTable l p sh := by
  simp only [State.readShadow, hedit, if_true]

theorem State.readShadow_of_no_holder (p : List Byte) (hedit : ∀ sh idle, u.cal.edit ≠ .editing l sh idle) :
    u.readShadow l p = u.answer l .noEdit [] := by
  unfold State.readShadow
  split
  · rfl
  · next g sh idle he =>
    rw [if_neg]
    rintro rfl
    exact hedit sh idle he
  · rfl

end

/-- The edit plays no part in whether a write starts at once. -/
theorem State.requestWrite_setEdit_starts (u : State) (e : Edit) (hfree : u.store.inFlight = none)
    (hreset : u.resetWaiting = false) : (u.setEdit e).requestWrite .commit = (u.setEdit e).startWrite .commit :=
  State.requestWrite_starts (u.setEdit e) .commit hfree hreset

theorem State.requestWrite_setEdit_waits (u : State) (e : Edit)
    (hbusy : u.store.inFlight ≠ none ∨ u.resetWaiting = true) :
    (u.setEdit e).requestWrite .commit = { u.setEdit e with store := { u.store with commitWaiting := true } } :=
  (State.requestWrite_waits (u.setEdit e) hbusy).1

/-! ## READ TABLE, by its codes -/

theorem partOfCode_of_le {part : Byte} (h : part.toNat ≤ 2) : partOfCode part = some part.toNat := by
  obtain rfl | rfl | rfl : part = 0 ∨ part = 1 ∨ part = 2 := by bv_omega
  all_goals rfl

theorem partOfCode_undefined {part : Byte} (h : 2 < part.toNat) : partOfCode part = none := by
  unfold partOfCode
  split
  · omega
  · omega
  · omega
  · rfl

section

variable (u : State) (l : Link) (c : CalSet) (copy : Byte)

theorem State.answerTable_defined (row : RowName) {part : Byte} (h : part.toNat ≤ 2) :
    u.answerTable l [rowByte row, copy, part] c =
      u.answer l .ok ([rowByte row, copy, part] ++ be16 u.cal.version ++ c.partBytes row part.toNat) := by
  have hrow : rowOfCode (u8At [rowByte row, copy, part] 0) = some row := rowOfCode_rowByte row
  have hpart : partOfCode (u8At [rowByte row, copy, part] 2) = some part.toNat := partOfCode_of_le h
  simp only [State.answerTable, hrow, hpart]
  rfl

theorem State.answerTable_undefined {row part : Byte} (h : 3 < row.toNat ∨ 2 < part.toNat) :
    u.answerTable l [row, copy, part] c = u.answer l .range [] := by
  have hcodes : rowOfCode (u8At [row, copy, part] 0) = none ∨ partOfCode (u8At [row, copy, part] 2) = none :=
    h.imp (rowOfCode_undefined row) partOfCode_undefined
  unfold State.answerTable
  split
  · next hrow hpart =>
    rcases hcodes with hnone | hnone
    · exact absurd (hrow.symm.trans hnone) (Option.some_ne_none _)
    · exact absurd (hpart.symm.trans hnone) (Option.some_ne_none _)
  · rfl
  · rfl

theorem State.takeReadTable_active (row part : Byte) :
    u.takeReadTable l [row, 0, part] = u.answerTable l [row, 0, part] u.cal.active := rfl

theorem State.takeReadTable_shadow (row part : Byte) :
    u.takeReadTable l [row, 1, part] = u.readShadow l [row, 1, part] := rfl

theorem State.takeReadTable_undefined (row part : Byte) {copy : Byte} (h : 1 < copy.toNat) :
    u.takeReadTable l [row, copy, part] = u.answer l .range [] := by
  have hcopy : u8At [row, copy, part] 1 = copy := rfl
  rw [State.takeReadTable, hcopy]
  split
  · omega
  · omega
  · rfl

end

/-- An answer from a copy of the table, given with the command in the executing slot, stands there. -/
theorem State.enter_answerTable (a : State) (l : Link) (c : Command) (p : List Byte) (copy : CalSet) {st : Status}
    {out : List Byte} (h : ∀ u : State, u.cal.version = a.cal.version → u.answerTable l p copy = u.answer l st out) :
    (a.onLink l (LinkState.enter c)).answerTable l p copy = a.holding l c st out := by
  rw [h (a.onLink l (LinkState.enter c)) (by rw [State.onLink_cal]), State.enter_answer]

/-! ## SET BASELINE -/

/-- The three values of a SET BASELINE payload. -/
theorem s32At_of_set_baseline (x y z : Word) :
    s32At (be32 x ++ be32 y ++ be32 z) 0 = x.toInt ∧ s32At (be32 x ++ be32 y ++ be32 z) 4 = y.toInt
      ∧ s32At (be32 x ++ be32 y ++ be32 z) 8 = z.toInt := by
  have hthird : u32At (be32 x ++ be32 y ++ be32 z) 8 = u32At (be32 z ++ []) 0 := by
    rw [List.append_nil]
    exact u32At_append (be32 x ++ be32 y) (be32 z) 8 rfl
  have hsecond : u32At (be32 x ++ be32 y ++ be32 z) 4 = u32At (be32 y ++ be32 z) 0 := by
    rw [List.append_assoc]
    exact u32At_append (be32 x) (be32 y ++ be32 z) 4 rfl
  refine ⟨?_, ?_, ?_⟩
  · rw [List.append_assoc, s32At_be32]
  · rw [s32At, hsecond, u32At_be32]
  · rw [s32At, hthird, u32At_be32]

theorem int32_toInt (v : Word) : int32 v.toInt = be32 v := by
  rw [int32, BitVec.ofInt_toInt]

/-- The state that SET BASELINE leaves before its write is requested. -/
def State.withBaseline (u : State) (l : Link) (b : PerAxis Int) : State :=
  State.raiseOthers
    { u with cal := { u.cal with baseline := b }, asm := { u.asm with baselineChange := true } } l (.baseline l)

theorem State.takeSetBaseline_of_good (u : State) (l : Link) {x y z : Word}
    (h : PerAxis.allWithin baselineLimit ⟨x.toInt, y.toInt, z.toInt⟩ = true) :
    u.takeSetBaseline l (be32 x ++ be32 y ++ be32 z) =
      ((u.withBaseline l ⟨x.toInt, y.toInt, z.toInt⟩).requestWrite .baseline).answer l .ok
        (be32 x ++ be32 y ++ be32 z) := by
  obtain ⟨hx, hy, hz⟩ := s32At_of_set_baseline x y z
  simp only [State.takeSetBaseline, hx, hy, hz, if_pos h, int32_toInt]
  rfl

theorem State.takeSetBaseline_of_bad (u : State) (l : Link) {x y z : Word}
    (h : ¬ PerAxis.allWithin baselineLimit ⟨x.toInt, y.toInt, z.toInt⟩ = true) :
    u.takeSetBaseline l (be32 x ++ be32 y ++ be32 z) = u.answer l .range [] := by
  obtain ⟨hx, hy, hz⟩ := s32At_of_set_baseline x y z
  simp only [State.takeSetBaseline, hx, hy, hz, if_neg h]

/-- The sender's own link gets no notice, so that its command may enter the slot before or after. -/
theorem State.withBaseline_onLink (u : State) (l : Link) (b : PerAxis Int) (f : LinkState → LinkState) :
    (u.onLink l f).withBaseline l b = (u.withBaseline l b).onLink l f := by
  cases l <;> rfl

theorem State.requestWrite_onLink (u : State) (k : WriteKind) (l : Link) (f : LinkState → LinkState) :
    (u.onLink l f).requestWrite k = (u.requestWrite k).onLink l f := by
  have hcan : (u.onLink l f).canStartWrite = u.canStartWrite := rfl
  cases k with
  | commit => simp only [State.requestWrite, hcan]; split <;> rfl
  | baseline => simp only [State.requestWrite, hcan]; split <;> rfl

@[simp] theorem State.withBaseline_store (u : State) (l : Link) (b : PerAxis Int) :
    (u.withBaseline l b).store = u.store := by
  cases l <;> rfl

@[simp] theorem State.withBaseline_resetWaiting (u : State) (l : Link) (b : PerAxis Int) :
    (u.withBaseline l b).resetWaiting = u.resetWaiting := by
  cases l <;> rfl

/-! ## The commands -/

section

variable {s : State} {w : Nat} {l : Link} (tag : Byte) (hw : s.takesAt w l)
include hw

theorem exec_commit_taken :
    exec (.commit w l tag []) s = .next (((s.advance w).onLink l (LinkState.enter ⟨0x55, tag, []⟩)).takeCommit l) :=
  exec_arrival_kind (k := .commit) rfl hw rfl rfl

theorem exec_abandon_taken :
    exec (.abandon w l tag []) s = .next (((s.advance w).onLink l (LinkState.enter ⟨0x56, tag, []⟩)).takeAbandon l) :=
  exec_arrival_kind (k := .abandon) rfl hw rfl rfl

theorem exec_lockCalibration_taken :
    exec (.lockCalibration w l tag []) s =
      .next (((s.advance w).onLink l (LinkState.enter ⟨0x57, tag, []⟩)).takeLock l) :=
  exec_arrival_kind (k := .lockCalibration) rfl hw rfl rfl

theorem exec_readTable_taken (row copy part : Byte) :
    exec (.readTable w l tag [row, copy, part]) s =
      .next (((s.advance w).onLink l (LinkState.enter ⟨0x58, tag, [row, copy, part]⟩)).takeReadTable l
        [row, copy, part]) :=
  exec_arrival_kind (c := ⟨0x58, tag, [row, copy, part]⟩) (k := .readTable) rfl hw rfl rfl

theorem exec_setBaseline_taken (x y z : Word) :
    exec (.setBaseline w l tag (be32 x ++ be32 y ++ be32 z)) s =
      .next (((s.advance w).onLink l (LinkState.enter ⟨0x59, tag, be32 x ++ be32 y ++ be32 z⟩)).takeSetBaseline l
        (be32 x ++ be32 y ++ be32 z)) :=
  exec_arrival_kind (c := ⟨0x59, tag, be32 x ++ be32 y ++ be32 z⟩) (k := .setBaseline) rfl hw rfl rfl

end

end Sys2Proof.Machine

namespace Sys2Proof.Proofs

open Sys2Proof.Machine

/-- Settles O51, by the edit state and, for the holder, by whether a write can start. -/
theorem commitRequestsTheWrite : Obligations.CommitRequestsTheWrite := by
  intro s w l tag hw a c run taken version
  have hrun : run = .next ((a.onLink l (LinkState.enter c)).takeCommit l) := exec_commit_taken tag hw
  have hcal : (a.onLink l (LinkState.enter c)).cal = a.cal := a.onLink_cal l _
  rw [hrun]
  refine ⟨fun sh idle hedit hfree hreset => ?starts, fun sh idle hedit hbusy => ?waits, fun hedit => ?none,
    fun h sh idle hother hedit => ?other, fun h sh b hedit => ?committing⟩
  case starts =>
    rw [State.takeCommit_of_holder (hcal ▸ hedit), State.requestWrite_setEdit_starts (a.onLink l _) _ hfree hreset]
    rfl
  case waits =>
    rw [State.takeCommit_of_holder (hcal ▸ hedit), State.requestWrite_setEdit_waits (a.onLink l _) _ hbusy]
    rfl
  case none => rw [State.takeCommit_of_none (hcal ▸ hedit), State.enter_answer]
  case other => rw [State.takeCommit_of_other hother (hcal ▸ hedit), State.enter_answer]
  case committing => rw [State.takeCommit_of_committing (hcal ▸ hedit), State.enter_answer]

/-- Settles O52, each command by the edit state. -/
theorem abandonAndLockFollowTheEdit : Obligations.AbandonAndLockFollowTheEdit := by
  refine ⟨?abandon, ?lock⟩
  case abandon =>
    intro s w l tag hw a c run
    have hrun : run = .next ((a.onLink l (LinkState.enter c)).takeAbandon l) := exec_abandon_taken tag hw
    have hcal : (a.onLink l (LinkState.enter c)).cal = a.cal := a.onLink_cal l _
    rw [hrun]
    refine ⟨fun sh idle hedit => ?holder, fun hedit => ?none, fun h sh idle hother hedit => ?other,
      fun h sh b hedit => ?committing⟩
    case holder =>
      rw [State.takeAbandon_of_holder (hcal ▸ hedit), State.enter_setEdit_answer]
      rfl
    case none => rw [State.takeAbandon_of_none (hcal ▸ hedit), State.enter_answer]
    case other => rw [State.takeAbandon_of_other hother (hcal ▸ hedit), State.enter_answer]
    case committing => rw [State.takeAbandon_of_committing (hcal ▸ hedit), State.enter_answer]
  case lock =>
    intro s w l tag hw a c run
    have hrun : run = .next ((a.onLink l (LinkState.enter c)).takeLock l) := exec_lockCalibration_taken tag hw
    have hcal : (a.onLink l (LinkState.enter c)).cal = a.cal := a.onLink_cal l _
    rw [hrun]
    refine ⟨fun hedit => ?none, fun h sh idle hedit => ?editing, fun h sh b hedit => ?committing⟩
    case none =>
      rw [State.takeLock_of_none (hcal ▸ hedit)]
      exact congrArg _ (a.enter_work_answer l c (fun u => { u with cal := { u.cal with lock := true } }) .ok []
        (fun _ _ => rfl))
    case editing => rw [State.takeLock_of_editing (hcal ▸ hedit), State.enter_answer]
    case committing => rw [State.takeLock_of_committing (hcal ▸ hedit), State.enter_answer]

/-- Settles O53, by the copy, and for the shadow by the edit state. -/
theorem readTableAnswersFromACopy : Obligations.ReadTableAnswersFromACopy := by
  intro s w l tag part hw a answer loaded contents
  have hrun (row copy : Byte) (b : State) (st : Status) (out : List Byte)
      (h : (a.onLink l (LinkState.enter ⟨0x58, tag, [row, copy, part]⟩)).takeReadTable l [row, copy, part] =
        b.holding l ⟨0x58, tag, [row, copy, part]⟩ st out) : answer [row, copy, part] b st out :=
    (exec_readTable_taken tag hw row copy part).trans (congrArg _ h)
  have hentered (c : Command) : (a.onLink l (LinkState.enter c)).cal.edit = a.cal.edit := by rw [a.onLink_cal]
  have hloaded (c : Command) (sh : CalSet) :
      (a.onLink l (LinkState.enter c)).setEdit (.editing l sh idleTicks) = (loaded sh).onLink l (LinkState.enter c) := rfl
  have hcontents (row : RowName) (c : CalSet) (hpart : part.toNat ≤ 2) : c.partBytes row part.toNat = contents c row := by
    obtain rfl | rfl | rfl : part = 0 ∨ part = 1 ∨ part = 2 := by bv_omega
    · rfl
    · rfl
    · cases row <;> rfl
  refine ⟨?defined, ?undefined, fun row hedit => ?noEdit, fun row copy hcopy => ?copyUndefined⟩
  case defined =>
    intro row hpart head
    refine ⟨hrun _ _ _ _ _ ?active, fun sh idle hedit => hrun _ _ _ _ _ ?shadow⟩
    case active =>
      rw [State.takeReadTable_active, State.onLink_cal]
      refine a.enter_answerTable l _ _ _ fun u hversion => ?_
      rw [u.answerTable_defined l _ 0 row hpart, hversion, hcontents row _ hpart]
    case shadow =>
      rw [State.takeReadTable_shadow, State.readShadow_of_holder _ ((hentered _).trans hedit), hloaded]
      refine (loaded sh).enter_answerTable l _ _ _ fun u hversion => ?_
      rw [u.answerTable_defined l _ 1 row hpart, hversion, hcontents row _ hpart]
  case undefined =>
    intro row hcodes
    refine ⟨hrun _ _ _ _ _ ?active, fun sh idle hedit => hrun _ _ _ _ _ ?shadow⟩
    case active =>
      rw [State.takeReadTable_active]
      exact a.enter_answerTable l _ _ _ fun u _ => u.answerTable_undefined l _ 0 hcodes
    case shadow =>
      rw [State.takeReadTable_shadow, State.readShadow_of_holder _ ((hentered _).trans hedit), hloaded]
      exact (loaded sh).enter_answerTable l _ _ _ fun u _ => u.answerTable_undefined l _ 1 hcodes
  case noEdit =>
    refine hrun _ _ _ _ _ ?_
    have hedit' (c : Command) : ∀ sh idle, (a.onLink l (LinkState.enter c)).cal.edit ≠ .editing l sh idle := hedit
    rw [State.takeReadTable_shadow, State.readShadow_of_no_holder _ (hedit' _), State.enter_answer]
  case copyUndefined =>
    refine hrun _ _ _ _ _ ?_
    rw [State.takeReadTable_undefined _ _ _ _ hcopy, State.enter_answer]

/-- Settles O54, by the ranges of the values and by whether a write can start. -/
theorem setBaselineReplacesAllThree : Obligations.SetBaselineReplacesAllThree := by
  intro s w l tag x y z hw a p run inRange good cal noticed taken
  have hrun : run = .next ((a.onLink l (LinkState.enter ⟨0x59, tag, p⟩)).takeSetBaseline l p) :=
    exec_setBaseline_taken tag hw x y z
  have hgood : good ↔ PerAxis.allWithin baselineLimit ⟨x.toInt, y.toInt, z.toInt⟩ = true := by
    rw [PerAxis.allWithin_iff]
    refine ⟨fun ⟨hx, hy, hz⟩ b => ?_, fun h => ⟨h .X, h .Y, h .Z⟩⟩
    cases b
    · exact hx
    · exact hy
    · exact hz
  have htaken (h : good) :
      run = .next (((a.withBaseline l ⟨x.toInt, y.toInt, z.toInt⟩).requestWrite .baseline).holding l ⟨0x59, tag, p⟩ .ok p) := by
    rw [hrun, State.takeSetBaseline_of_good _ l (hgood.mp h), State.withBaseline_onLink, State.requestWrite_onLink,
      State.enter_answer]
  have hbase : a.withBaseline l ⟨x.toInt, y.toInt, z.toInt⟩ =
      { a with
        cal := cal
        asm := { a.asm with baselineChange := true }
        links := ⟨noticed .A a.links.a, noticed .B a.links.b, noticed .C a.links.c⟩ } := State.raiseOthers_eq _ l _
  refine ⟨fun h hfree hreset => ?starts, fun h hbusy => ?waits, fun h => ?refused⟩
  case starts =>
    rw [htaken h, State.requestWrite_starts _ .baseline (by simpa using hfree) (by simpa using hreset), hbase]
    rfl
  case waits =>
    rw [htaken h, (State.requestWrite_waits _ (by simpa using hbusy)).2, hbase]
  case refused =>
    rw [hrun, State.takeSetBaseline_of_bad _ l (mt hgood.mpr h), State.enter_answer]

end Sys2Proof.Proofs
end

section
/-! SUPPORT. READ NOTICE, SET NOTICE MASK, SET MARK LINE, MARK and READ MARK (R175 to R182): the entry that READ NOTICE
reports, what a capture holds, and the state in which each command stands answered. -/

namespace Sys2Proof.Machine

/-! ## READ NOTICE -/

theorem State.onLink_notices_self (a : State) (l : Link) :
    a.onLink l (fun k => { k with notices := (a.links.get l).notices }) = a := by
  cases l <;> rfl

/-- The notices of a link when READ NOTICE executes are those of the link at its arrival. -/
theorem State.enter_seeStrobe_notices (a : State) (l : Link) (c : Command) :
    ((a.onLink l (LinkState.enter c)).seeStrobe.links.get l).notices = (a.links.get l).notices := by
  rw [State.seeStrobe_onLink, State.onLink_get_same]
  rfl

theorem State.takeReadNotice_some (a : State) (l : Link) (c : Command) {x : Notice}
    (h : (a.links.get l).notices.highest = some x) :
    (a.onLink l (LinkState.enter c)).takeReadNotice l =
      (State.onLink { a with replaced := none } l
        (fun k => { k with notices := (a.links.get l).notices.afterRead x })).holding l c .ok
        (x.code :: (x.detail ++ be16 ((a.links.get l).notices.afterRead x).bits)) := by
  simp only [State.takeReadNotice, State.enter_seeStrobe_notices, h]
  exact State.enter_change_answer { a with replaced := none } l c _ .ok _ (fun _ => rfl)

theorem State.takeReadNotice_none (a : State) (l : Link) (c : Command)
    (h : (a.links.get l).notices.highest = none) :
    (a.onLink l (LinkState.enter c)).takeReadNotice l =
      State.holding { a with replaced := none } l c .ok (0 :: ([0, 0, 0, 0, 0] ++ be16 (a.links.get l).notices.bits)) := by
  simp only [State.takeReadNotice, State.enter_seeStrobe_notices, h]
  exact State.enter_answer { a with replaced := none } l c .ok _

/-! ## SET NOTICE MASK and SET MARK LINE -/

theorem State.enter_takeSetNoticeMask (a : State) (l : Link) (c : Command) (m : Half) :
    (a.onLink l (LinkState.enter c)).takeSetNoticeMask l (be16 m) =
      (State.onLink { a with replaced := none } l (fun k => { k with mask := maskBits m })).holding l c .ok
        (be16 (maskBits m) ++ be16 (a.links.get l).notices.bits) := by
  have hmask : u16At (be16 m) 0 = m := by rw [← List.append_nil (be16 m), u16At_be16]
  have hnotices : ((a.onLink l (LinkState.enter c)).links.get l).notices = (a.links.get l).notices := by
    rw [State.onLink_get_same]
    rfl
  simp only [State.takeSetNoticeMask, hmask, hnotices]
  exact State.enter_change_answer { a with replaced := none } l c (fun k => { k with mask := maskBits m }) .ok _
    (fun _ => rfl)

section

variable {u : State} {l : Link}

theorem State.takeSetMarkLine_off (p : List Byte) :
    u.takeSetMarkLine l (0 :: p) = (u.onLink l (fun k => { k with markLine := false })).answerMarkLine l .ok := rfl

theorem State.takeSetMarkLine_on (p : List Byte) :
    u.takeSetMarkLine l (1 :: p) = (u.onLink l (fun k => { k with markLine := true })).answerMarkLine l .ok := rfl

theorem State.takeSetMarkLine_undefined {v : Byte} (p : List Byte) (h : 1 < v.toNat) :
    u.takeSetMarkLine l (v :: p) = u.answerMarkLine l .range := by
  have hvalue : u8At (v :: p) 0 = v := rfl
  rw [State.takeSetMarkLine, hvalue]
  split
  · omega
  · omega
  · rfl

end

/-- The values that SET MARK LINE reports (Table 11-3). -/
def LinkState.markLinePayload (k : LinkState) : List Byte :=
  [byteOf (bitAt 0 k.markLine), byteOf (bitAt 0 k.latch.isSome), byteOf k.ignored]

/-- A change of the enable while the command is in the executing slot, and then the answer that reports it. -/
theorem State.enter_change_answerMarkLine (a : State) (l : Link) (c : Command) (f : LinkState → LinkState) (st : Status)
    (hf : ∀ k, f (LinkState.enter c k) = LinkState.enter c (f k)) :
    ((a.onLink l (LinkState.enter c)).onLink l f).answerMarkLine l st =
      (a.onLink l f).holding l c st (f (a.links.get l)).markLinePayload := by
  have hlink : ((a.onLink l (LinkState.enter c)).onLink l f).links.get l = LinkState.enter c (f (a.links.get l)) := by
    rw [State.onLink_get_same, State.onLink_get_same, hf]
  rw [State.answerMarkLine, hlink]
  exact a.enter_change_answer l c f st _ hf

theorem State.enter_answerMarkLine (a : State) (l : Link) (c : Command) (st : Status) :
    (a.onLink l (LinkState.enter c)).answerMarkLine l st = a.holding l c st (a.links.get l).markLinePayload := by
  rw [State.answerMarkLine, State.onLink_get_same]
  exact a.enter_answer l c st _

/-! ## A capture and its offer -/

/-- What a capture holds besides the axes' values (R105, R177). -/
theorem State.capture_fields (s : State) (source : MarkSource) :
    (s.capture source).source = source ∧ (s.capture source).sn = s.epoch.sn
      ∧ (s.capture source).label = s.epoch.label ∧ (s.capture source).clock = s.disc.clock
      ∧ (s.capture source).u = s.disc.u ∧ (s.capture source).tsHealth = s.thermTS.health
      ∧ ∀ x, (s.capture source).axes.get x = s.captureAxis x :=
  ⟨rfl, rfl, rfl, rfl, rfl, rfl, fun x => by cases x <;> rfl⟩

/-- The tick position of a capture; with the boundary due it is the last of the interval that ends (Table 1-1). -/
theorem State.capture_tick (s : State) (source : MarkSource) :
    (s.epoch.tickPos < s.epoch.len → (s.capture source).tick = s.epoch.tickPos)
      ∧ (s.epoch.len ≤ s.epoch.tickPos → (s.capture source).tick = s.epoch.len - 1) :=
  ⟨fun h => Nat.min_eq_left (Nat.le_sub_one_of_lt h), fun h => Nat.min_eq_right (Nat.sub_le_of_le_add (by omega))⟩

theorem State.capture_tsValue (s : State) (source : MarkSource) :
    (s.thermTS.health = .none → (s.capture source).tsValue = none)
      ∧ (s.thermTS.health ≠ .none → (s.capture source).tsValue = s.thermTS.held) :=
  ⟨Thermometer.offered_of_health_none, Thermometer.offered_of_health_ne_none⟩

/-- An offer to the latch and the command that has entered the slot do not touch each other. -/
theorem LinkState.offer_enter (cap : Capture) (c : Command) (k : LinkState) :
    LinkState.offer cap (LinkState.enter c k) = LinkState.enter c (LinkState.offer cap k) := by
  cases h : k.latch with
  | none =>
    rw [LinkState.offer_empty cap h, LinkState.offer_empty cap (show (LinkState.enter c k).latch = none from h)]
    rfl
  | some held =>
    rw [LinkState.offer_full cap h, LinkState.offer_full cap (show (LinkState.enter c k).latch = some held from h)]
    rfl

/-- MARK offers its capture to the sender's latch and is answered from the latch as it stands then (R179). -/
theorem State.enter_takeMark (a : State) (l : Link) (c : Command) :
    (a.onLink l (LinkState.enter c)).takeMark l =
      (a.markTaken.onLink l (LinkState.offer (a.capture .command))).holding l c .ok
        (markPayload (a.links.get l).latch.isNone ((a.links.get l).latch.getD (a.capture .command))
          (LinkState.offer (a.capture .command) (a.links.get l)).ignored) := by
  have hcapture : (a.onLink l (LinkState.enter c)).capture .command = a.capture .command := rfl
  have hlatch : ((a.onLink l (LinkState.enter c)).links.get l).latch = (a.links.get l).latch := by
    rw [State.onLink_get_same]
    rfl
  have hignored :
      (((a.onLink l (LinkState.enter c)).markTaken.onLink l (LinkState.offer (a.capture .command))).links.get l).ignored
        = (LinkState.offer (a.capture .command) (a.links.get l)).ignored := by
    rw [State.onLink_get_same, State.markTaken_links, State.onLink_get_same, LinkState.offer_enter]
    rfl
  simp only [State.takeMark, hcapture, hlatch, hignored]
  exact a.markTaken.enter_change_answer l c _ .ok _ (fun k => LinkState.offer_enter _ c k)

theorem State.enter_takeReadMark_empty (a : State) (l : Link) (c : Command) (h : (a.links.get l).latch = none) :
    (a.onLink l (LinkState.enter c)).takeReadMark l = a.holding l c .ok [0, byteOf (a.links.get l).ignored] := by
  have hlatch : (LinkState.enter c (a.links.get l)).latch = none := h
  simp only [State.takeReadMark, State.onLink_get_same, hlatch]
  exact a.enter_answer l c .ok _

theorem State.enter_takeReadMark_full (a : State) (l : Link) (c : Command) {cap : Capture}
    (h : (a.links.get l).latch = some cap) :
    (a.onLink l (LinkState.enter c)).takeReadMark l =
      (a.onLink l (fun k => { k with latch := none, ignored := 0, notices := { k.notices with mark := none } })).holding l
        c .ok (1 :: byteOf (a.links.get l).ignored :: cap.bytes) := by
  have hlatch : (LinkState.enter c (a.links.get l)).latch = some cap := h
  simp only [State.takeReadMark, State.onLink_get_same, hlatch]
  exact a.enter_change_answer l c _ .ok _ (fun _ => rfl)

/-! ## The commands -/

section

variable {s : State} {w : Nat} {l : Link} (tag : Byte) (hw : s.takesAt w l)
include hw

theorem exec_readNotice_taken :
    exec (.readNotice w l tag []) s =
      .next (((s.advance w).onLink l (LinkState.enter ⟨0x21, tag, []⟩)).takeReadNotice l) :=
  exec_arrival_kind (k := .readNotice) rfl hw rfl rfl

theorem exec_setNoticeMask_taken (m : Half) :
    exec (.setNoticeMask w l tag (be16 m)) s =
      .next (((s.advance w).onLink l (LinkState.enter ⟨0x22, tag, be16 m⟩)).takeSetNoticeMask l (be16 m)) :=
  exec_arrival_kind (c := ⟨0x22, tag, be16 m⟩) (k := .setNoticeMask) rfl hw rfl rfl

theorem exec_mark_taken :
    exec (.mark w l tag []) s = .next (((s.advance w).onLink l (LinkState.enter ⟨0x23, tag, []⟩)).takeMark l) :=
  exec_arrival_kind (k := .mark) rfl hw rfl rfl

theorem exec_readMark_taken :
    exec (.readMark w l tag []) s =
      .next (((s.advance w).onLink l (LinkState.enter ⟨0x24, tag, []⟩)).takeReadMark l) :=
  exec_arrival_kind (k := .readMark) rfl hw rfl rfl

theorem exec_setMarkLine_taken (v : Byte) :
    exec (.setMarkLine w l tag [v]) s =
      .next (((s.advance w).onLink l (LinkState.enter ⟨0x25, tag, [v]⟩)).takeSetMarkLine l [v]) :=
  exec_arrival_kind (c := ⟨0x25, tag, [v]⟩) (k := .setMarkLine) rfl hw rfl rfl

end

end Sys2Proof.Machine

namespace Sys2Proof.Proofs

open Sys2Proof.Machine

/-- Settles O41: each kind is the highest when none of the kinds before it is pending. -/
theorem readNoticeReportsTheHighestEntry : Obligations.ReadNoticeReportsTheHighestEntry := by
  intro s w l tag hw a n run reports higher
  have hsome (x : Notice) (h : n.highest = some x) : reports (n.afterRead x) x.code x.detail :=
    (exec_readNotice_taken tag hw).trans (congrArg _ (a.takeReadNotice_some l _ h))
  have hnone (h : n.highest = none) : reports n 0 [0, 0, 0, 0, 0] := by
    refine (exec_readNotice_taken tag hw).trans (congrArg _ ((a.takeReadNotice_none l _ h).trans ?_))
    rw [State.onLink_notices_self { a with replaced := none } l]
  refine ⟨fun c hc => hsome (.clock c) ?clock, fun hi k sn hk => hsome (.step k sn) ?step,
    fun hi m hm => hsome (.gap m) ?gap, fun hi ch h ht => hsome (.temp ch h) ?temp,
    fun hi v hv => hsome (.calib v) ?calib, fun hi b hb => hsome (.baseline b) ?baseline,
    fun hi he => hsome .editExpired ?editExpired, fun hi src hs => hsome (.mark src) ?mark,
    fun hi hl => hsome .labelConflict ?labelConflict, fun hi => hnone ?none⟩
  case clock => simp [NoticeSet.highest, hc]
  all_goals simp [higher] at hi
  case step => simp [NoticeSet.highest, hi, hk]
  case gap => simp [NoticeSet.highest, hi, hm]
  case temp => simp [NoticeSet.highest, hi, ht]
  case calib => simp [NoticeSet.highest, hi, hv]
  case baseline => simp [NoticeSet.highest, hi, hb]
  case editExpired => simp [NoticeSet.highest, hi, he]
  case mark => simp [NoticeSet.highest, hi, hs]
  case labelConflict => simp [NoticeSet.highest, hi, hl]
  case none => simp [NoticeSet.highest, hi]

/-- Settles O42: the mask by its bits, the enable by the value. -/
theorem maskAndMarkLineAreSet : Obligations.MaskAndMarkLineAreSet := by
  intro s w l tag hw a k full
  have hpayload (on : Bool) : LinkState.markLinePayload { k with markLine := on } =
      [if on then 1 else 0, full, BitVec.ofNat 8 k.ignored] := by
    rw [LinkState.markLinePayload, byteOf_bitAt_zero, byteOf_bitAt_zero]
    rfl
  refine ⟨fun m => ?mask, ?off, ?on, fun v hoff hon => ?undefined⟩
  case mask =>
    rw [exec_setNoticeMask_taken tag hw m, State.enter_takeSetNoticeMask]
    rfl
  case off =>
    rw [exec_setMarkLine_taken tag hw, State.takeSetMarkLine_off,
      State.enter_change_answerMarkLine a l _ (fun k => { k with markLine := false }) .ok (fun _ => rfl), hpayload]
    rfl
  case on =>
    rw [exec_setMarkLine_taken tag hw, State.takeSetMarkLine_on,
      State.enter_change_answerMarkLine a l _ (fun k => { k with markLine := true }) .ok (fun _ => rfl), hpayload]
    rfl
  case undefined =>
    have hvalue : 1 < v.toNat := by bv_omega
    have hrefused : k.markLinePayload = _ := hpayload k.markLine
    rw [exec_setMarkLine_taken tag hw, State.takeSetMarkLine_undefined [] hvalue, State.enter_answerMarkLine, hrefused]

/-- Settles O43, each command by whether the sender's latch is empty. -/
theorem markFillsAndReadMarkEmptiesTheLatch : Obligations.MarkFillsAndReadMarkEmptiesTheLatch := by
  refine ⟨?mark, ?readMark⟩
  case mark =>
    intro s w l tag hw a k c marked
    have hrun := (exec_mark_taken tag hw).trans (congrArg _ (a.enter_takeMark l c))
    refine ⟨fun hempty => ?empty, fun held hfull => ?full⟩
    case empty =>
      obtain ⟨hsource, hsn, hlabel, hclock, hu, hhealth, haxes⟩ := a.capture_fields .command
      obtain ⟨hopen, hdue⟩ := a.capture_tick .command
      obtain ⟨hnone, hheld⟩ := a.capture_tsValue .command
      refine ⟨a.capture .command, hrun.trans ?_, hsource, hsn, hopen, hdue, hlabel, hclock, hu, hhealth, hnone, hheld,
        haxes⟩
      rw [a.markTaken.onLink_congr l _ (fun k =>
        { k with latch := some (a.capture .command), notices := { k.notices with mark := some .command } })
        (LinkState.offer_empty _ hempty), hempty, LinkState.offer_empty _ hempty]
      rfl
    case full =>
      refine hrun.trans ?_
      rw [a.markTaken.onLink_congr l _ (fun k => { k with ignored := min 255 (k.ignored + 1) })
        (LinkState.offer_full _ hfull), hfull, LinkState.offer_full _ hfull]
      rfl
  case readMark =>
    intro s w l tag hw a k
    refine ⟨fun hempty => ?empty, fun cap hfull => ?full⟩
    case empty => rw [exec_readMark_taken tag hw, State.enter_takeReadMark_empty a l _ hempty]; rfl
    case full => rw [exec_readMark_taken tag hw, State.enter_takeReadMark_full a l _ hfull]; rfl

end Sys2Proof.Proofs
end

section
/-! SUPPORT. LABEL NEXT SECOND and SET OFFSET (R13, R14, R53 to R55), and the queue of a link (R152, R153): the command that
waits or displaces, and the commands that no block takes. -/

namespace Sys2Proof.Machine

/-! ## LABEL NEXT SECOND, by the conflict flag and the armed label -/

section

variable {u : State} {l : Link} {v x : Word}

theorem u32At_be32_self (v : Word) : u32At (be32 v) 0 = v := by
  rw [← List.append_nil (be32 v), u32At_be32]

theorem State.takeLabel_of_conflict (h : u.epoch.conflict = true) :
    u.takeLabel l (be32 v) = u.answer l .conflict (be32 u.epoch.sn) :=
  if_pos h

theorem State.takeLabel_of_unarmed (h : u.epoch.conflict = false) (harmed : u.epoch.armed = none) :
    u.takeLabel l (be32 v) =
      State.answer { u with epoch := { u.epoch with armed := some v } } l .ok (be32 u.epoch.sn) := by
  simp only [State.takeLabel, h, harmed, u32At_be32_self, Bool.false_eq_true, if_false]

theorem State.takeLabel_of_equal (h : u.epoch.conflict = false) (harmed : u.epoch.armed = some v) :
    u.takeLabel l (be32 v) = u.answer l .ok (be32 u.epoch.sn) := by
  simp only [State.takeLabel, h, harmed, u32At_be32_self, Bool.false_eq_true, if_false, if_true]

theorem State.takeLabel_of_different (h : u.epoch.conflict = false) (harmed : u.epoch.armed = some x) (hne : x ≠ v) :
    u.takeLabel l (be32 v) =
      (State.raiseAll { u with epoch := { u.epoch with armed := none, conflict := true } } .labelConflict).answer l
        .conflict (be32 u.epoch.sn) := by
  simp only [State.takeLabel, h, harmed, u32At_be32_self, Bool.false_eq_true, if_false, if_neg hne]

end

/-- A notice for all links, with a command already in one link's slot. -/
theorem State.raiseAll_onLink_enter (u : State) (l : Link) (c : Command) (n : Notice) :
    (u.onLink l (LinkState.enter c)).raiseAll n = (u.raiseAll n).onLink l (LinkState.enter c) := by
  cases l <;> rfl

theorem State.enter_raiseAll_answer (a : State) (e : EpochTimer) (l : Link) (c : Command) (n : Notice) (st : Status)
    (p : List Byte) :
    (State.raiseAll { a.onLink l (LinkState.enter c) with epoch := e } n).answer l st p =
      State.holding { a with epoch := e, links := a.links.map (LinkState.raise n) } l c st p :=
  (congrArg (fun u => u.answer l st p) (State.raiseAll_onLink_enter { a with epoch := e } l c n)).trans
    (State.enter_answer { a with epoch := e, links := a.links.map (LinkState.raise n) } l c st p)

/-! ## SET OFFSET -/

theorem PerAxis.modify_self {α : Type} (p : PerAxis α) (x : Axis) (f : α → α) (h : ∀ v, f v = v) : p.modify x f = p := by
  cases x <;> simp only [PerAxis.modify, h]

theorem modeOfCode_undefined {m : Byte} (h : 1 < m.toNat) : modeOfCode m = none := by
  unfold modeOfCode
  split
  · omega
  · omega
  · rfl

section

variable {u : State} {l : Link}

theorem State.takeSetOffset_auto (x : Axis) (i : Byte) :
    u.takeSetOffset l [axisByte x, 0, i] = u.changeAxis l x .auto .ok := by
  have haxis : axisOfCode (u8At [axisByte x, 0, i] 0) = some x := axisOfCode_axisByte x
  have hmode : modeOfCode (u8At [axisByte x, 0, i] 1) = some .auto := rfl
  simp only [State.takeSetOffset, haxis, hmode]

theorem State.takeSetOffset_fixed (x : Axis) (i : Byte) :
    u.takeSetOffset l [axisByte x, 1, i] =
      if -6 ≤ i.toInt ∧ i.toInt ≤ 6 then u.changeAxis l x (.fixed i.toInt) .ok
      else u.changeAxis l x .refused .range := by
  have haxis : axisOfCode (u8At [axisByte x, 1, i] 0) = some x := axisOfCode_axisByte x
  have hmode : modeOfCode (u8At [axisByte x, 1, i] 1) = some .fixed := rfl
  simp only [State.takeSetOffset, haxis, hmode]
  rfl

theorem State.takeSetOffset_mode_undefined (x : Axis) {m : Byte} (i : Byte) (h : 1 < m.toNat) :
    u.takeSetOffset l [axisByte x, m, i] = u.answer l .range [] := by
  have haxis : axisOfCode (u8At [axisByte x, m, i] 0) = some x := axisOfCode_axisByte x
  have hmode : modeOfCode (u8At [axisByte x, m, i] 1) = none := modeOfCode_undefined h
  simp only [State.takeSetOffset, haxis, hmode]

theorem State.takeSetOffset_axis_undefined {x : Byte} (p : List Byte) (h : 2 < x.toNat) :
    u.takeSetOffset l (x :: p) = u.answer l .range [] := by
  have haxis : axisOfCode (u8At (x :: p) 0) = none := axisOfCode_undefined h
  simp only [State.takeSetOffset, haxis]

end

/-- The channel changes, and the change stays in reach of a strobe of the same instant (R86). -/
theorem State.enter_changeAxis (a : State) (l : Link) (c : Command) (x : Axis) (t : OffsetChange) (st : Status) :
    (a.onLink l (LinkState.enter c)).changeAxis l x t st =
      State.holding
        { a with
          axes := a.axes.modify x (AxisChannel.set t)
          earlier := a.earlier.modify x (fun qs => ⟨l, a.axes.get x, t⟩ :: qs) }
        l c st ((a.axes.get x).set t).offsetPayload :=
  State.enter_answer
    { a with
      axes := a.axes.modify x (AxisChannel.set t)
      earlier := a.earlier.modify x (fun qs => ⟨l, a.axes.get x, t⟩ :: qs) } l c st _

/-! ## The queue -/

theorem LinkState.wait_of_empty {k : LinkState} (c : Command) (h : k.waiting = none) :
    k.wait c = { k with waiting := some c } := by
  rw [LinkState.wait, h]

/-- The command that waited is displaced, and counted twice (R152, R155). -/
theorem LinkState.wait_of_full {k : LinkState} (c : Command) (h : k.waiting ≠ none) :
    k.wait c = { k with
      waiting := some c
      displaced := min 255 (k.displaced + 1)
      displacedTotal := min 65535 (k.displacedTotal + 1) } := by
  obtain ⟨d, hd⟩ := Option.ne_none_iff_exists'.mp h
  rw [LinkState.wait, hd]
  rfl

/-- With the executing slot occupied the command is left to wait (R152). -/
theorem State.handOver_of_busy {s : State} {l : Link} (c : Command) (h : (s.links.get l).executing ≠ none) :
    s.handOver l c = s.onLink l (LinkState.wait c) := by
  obtain ⟨e, he⟩ := Option.ne_none_iff_exists'.mp h
  rw [State.handOver, he]

/-! ## Commands that no block takes (R153) -/

theorem State.begin_of_unknown (a : State) (l : Link) {c : Command} (h : Kind.ofByte c.kind = none) :
    a.begin l c = a.holding l c .unknown [] := by
  rw [State.begin, State.execute, h]
  exact a.enter_answer l c .unknown []

theorem State.begin_of_length (a : State) (l : Link) {c : Command} {k : Kind} (h : Kind.ofByte c.kind = some k)
    (hlength : c.payload.length ≠ k.payloadLength) : a.begin l c = a.holding l c .length [] := by
  rw [State.begin, State.execute, h]
  exact (if_neg hlength).trans (a.enter_answer l c .length [])

theorem exec_unknownKind_of_known {s : State} {w : Nat} {l : Link} {kind : Byte} (tag : Byte) (p : List Byte)
    (h : Kind.ofByte kind ≠ none) : exec (.unknownKind w l kind tag p) s = .next s := by
  have hknown : (Kind.ofByte kind).isNone = false := by rw [Option.isNone_eq_false_iff, Option.isSome_iff_ne_none]; exact h
  simp only [exec, execUnknownKind]
  exact State.atInstant_of_not_occurs _ (by rw [hknown, Bool.and_false])

/-- The kinds in the order of Table 8-3. -/
def Kind.all : List Kind :=
  [.readRecords, .stream, .seek, .readStatus, .readNotice, .setNoticeMask, .mark, .readMark, .setMarkLine,
    .labelNextSecond, .setOffset, .openEdit, .writeKnot, .writeBand, .writeBias, .writeHoldoverRate, .commit, .abandon,
    .lockCalibration, .readTable, .setBaseline]

theorem Kind.mem_all (k : Kind) : k ∈ Kind.all := by cases k <;> decide

/-- A KIND byte and its payload length stand in Table 8-3 just when the byte names a kind of that length. -/
theorem Kind.mem_table_iff (b : Byte) (n : Nat) :
    (b.toNat, n) ∈ Kind.all.map (fun k => (k.code.toNat, k.payloadLength)) ↔
      ∃ k, Kind.ofByte b = some k ∧ k.payloadLength = n := by
  simp only [List.mem_map, Prod.mk.injEq]
  constructor
  · rintro ⟨k, -, hcode, hlength⟩
    exact ⟨k, by rw [← BitVec.eq_of_toNat_eq hcode, Kind.ofByte_code], hlength⟩
  · rintro ⟨k, hkind, hlength⟩
    exact ⟨k, k.mem_all, by rw [Kind.eq_code_of_ofByte hkind], hlength⟩

theorem Kind.mem_codes_iff (b : Byte) :
    b.toNat ∈ (Kind.all.map (fun k => (k.code.toNat, k.payloadLength))).map (·.1) ↔ Kind.ofByte b ≠ none := by
  rw [Option.ne_none_iff_exists']
  constructor
  · intro h
    obtain ⟨⟨m, n⟩, hmem, hm⟩ := List.mem_map.mp h
    obtain rfl : m = b.toNat := hm
    obtain ⟨k, hk, -⟩ := (Kind.mem_table_iff b n).mp hmem
    exact ⟨k, hk⟩
  · rintro ⟨k, hk⟩
    exact List.mem_map.mpr ⟨_, (Kind.mem_table_iff b _).mpr ⟨k, hk, rfl⟩, rfl⟩

/-! ## The commands -/

section

variable {s : State} {w : Nat} {l : Link} (tag : Byte) (hw : s.takesAt w l)
include hw

theorem exec_labelNextSecond_taken (v : Word) :
    exec (.labelNextSecond w l tag (be32 v)) s =
      .next (((s.advance w).onLink l (LinkState.enter ⟨0x30, tag, be32 v⟩)).takeLabel l (be32 v)) :=
  exec_arrival_kind (c := ⟨0x30, tag, be32 v⟩) (k := .labelNextSecond) rfl hw rfl rfl

theorem exec_setOffset_taken (x m i : Byte) :
    exec (.setOffset w l tag [x, m, i]) s =
      .next (((s.advance w).onLink l (LinkState.enter ⟨0x40, tag, [x, m, i]⟩)).takeSetOffset l [x, m, i]) :=
  exec_arrival_kind (c := ⟨0x40, tag, [x, m, i]⟩) (k := .setOffset) rfl hw rfl rfl

end

end Sys2Proof.Machine

namespace Sys2Proof.Proofs

open Sys2Proof.Machine

/-- Settles O44, by the conflict flag and the label armed. -/
theorem labelIsArmedOrMeetsAConflict : Obligations.LabelIsArmedOrMeetsAConflict := by
  intro s w l tag v hw a c run
  have hrun : run = .next ((a.onLink l (LinkState.enter c)).takeLabel l (be32 v)) := exec_labelNextSecond_taken tag hw v
  have hepoch : (a.onLink l (LinkState.enter c)).epoch = a.epoch := a.onLink_epoch l _
  rw [hrun]
  refine ⟨fun hclear harmed => ?unarmed, fun hclear harmed => ?equal, fun u hclear harmed hne => ?different,
    fun hconflict => ?conflict⟩
  case unarmed =>
    rw [State.takeLabel_of_unarmed (hepoch ▸ hclear) (hepoch ▸ harmed), hepoch]
    exact congrArg _ (State.enter_answer { a with epoch := { a.epoch with armed := some v } } l c .ok _)
  case equal => rw [State.takeLabel_of_equal (hepoch ▸ hclear) (hepoch ▸ harmed), State.enter_answer, hepoch]
  case different =>
    rw [State.takeLabel_of_different (hepoch ▸ hclear) (hepoch ▸ harmed) hne, hepoch]
    exact congrArg _ (a.enter_raiseAll_answer { a.epoch with armed := none, conflict := true } l c .labelConflict _ _)
  case conflict => rw [State.takeLabel_of_conflict (hepoch ▸ hconflict), State.enter_answer, hepoch]

/-- Settles O45, by the axis, the mode and the index. -/
theorem setOffsetActsOnItsAxis : Obligations.SetOffsetActsOnItsAxis := by
  intro s w l tag m i hw a
  refine ⟨?axis, fun x hx => ?axisUndefined⟩
  case axisUndefined =>
    rw [exec_setOffset_taken tag hw, State.takeSetOffset_axis_undefined _ hx, State.enter_answer]
  case axis =>
    intro x p ch reach run
    have hrun : run = .next ((a.onLink l (LinkState.enter ⟨0x40, tag, p⟩)).takeSetOffset l p) :=
      exec_setOffset_taken tag hw _ m i
    rw [hrun]
    refine ⟨?fixed, ?fixedOutside, ?auto, fun hauto hfixed => ?modeUndefined⟩
    case fixed =>
      rintro rfl hlow hhigh
      rw [State.takeSetOffset_fixed, if_pos ⟨hlow, hhigh⟩, State.enter_changeAxis]
      have hpayload : (ch.set (.fixed i.toInt)).offsetPayload = [1, i, 3] := by
        show [1, int8 i.toInt, 3] = [1, i, 3]
        rw [int8, BitVec.ofInt_toInt]
      rw [hpayload]
      rfl
    case fixedOutside =>
      rintro rfl hout
      rw [State.takeSetOffset_fixed, if_neg (by omega), State.enter_changeAxis,
        PerAxis.modify_self a.axes x (AxisChannel.set .refused) (fun _ => rfl)]
      rfl
    case auto =>
      rintro rfl
      rw [State.takeSetOffset_auto, State.enter_changeAxis]
      rfl
    case modeUndefined =>
      rw [State.takeSetOffset_mode_undefined x i (by bv_omega), State.enter_answer]

/-- Settles O33: a command that is not heard changes nothing, and one that meets an occupied slot waits. -/
theorem busyLinkQueuesOrDisplaces : Obligations.BusyLinkQueuesOrDisplaces := by
  intro s i w l c harrival k
  refine ⟨fun hdeaf => exec_arrival_unheard harrival ?deaf, fun hw hbreak hdecided hbusy => ?busy⟩
  case deaf =>
    rw [Bool.eq_false_iff, ne_eq, State.hears_iff]
    rintro ⟨hbreak, hdecided⟩
    rcases hdeaf with h | h
    · exact hbreak h
    · exact Bool.false_ne_true (hdecided.symm.trans h)
  case busy =>
    have hbusy' : ((s.advance w).links.get l).executing ≠ none := by rwa [State.advance_executing]
    rw [exec_arrival harrival hw ((s.hears_iff l).mpr ⟨hbreak, hdecided⟩), State.handOver_of_busy c hbusy']
    refine ⟨fun hempty => ?waits, fun hfull => ?displaces⟩
    case waits =>
      have hempty' : ((s.advance w).links.get l).waiting = none := by rwa [State.advance_waiting]
      exact congrArg _ ((s.advance w).onLink_congr l _ _ (LinkState.wait_of_empty c hempty'))
    case displaces =>
      have hfull' : ((s.advance w).links.get l).waiting ≠ none := by rwa [State.advance_waiting]
      exact congrArg _ ((s.advance w).onLink_congr l _ _ (LinkState.wait_of_full c hfull'))

/-- Settles O34: the list of the statement is Table 8-3, kind by kind. -/
theorem unknownKindsAndLengthsAreAnswered : Obligations.UnknownKindsAndLengthsAreAnswered := by
  unfold Obligations.UnknownKindsAndLengthsAreAnswered
  intro lengths s w l hw
  have htable : lengths = Kind.all.map (fun k => (k.code.toNat, k.payloadLength)) := by decide
  rw [htable]
  refine ⟨fun kind tag p hkind => ?unknown, fun kind tag p hkind => ?known, fun i c n harrival hmem hlength => ?length⟩
  case unknown =>
    have hnone : Kind.ofByte kind = none := Classical.not_not.mp (mt (Kind.mem_codes_iff kind).mpr hkind)
    have harrival : (Instr.unknownKind w l kind tag p).arrival = some (w, l, ⟨kind, tag, p⟩) := by
      rw [Instr.arrival, hnone]
      rfl
    rw [exec_arrival_taken harrival hw, State.begin_of_unknown _ l hnone]
  case known => exact exec_unknownKind_of_known tag p ((Kind.mem_codes_iff kind).mp hkind)
  case length =>
    obtain ⟨k, hk, hn⟩ := (Kind.mem_table_iff c.kind n).mp hmem
    rw [exec_arrival_taken harrival hw, State.begin_of_length _ l hk (hn ▸ hlength)]

end Sys2Proof.Proofs
end

section
/-! SUPPORT. The receiver of a link (R145 to R149): what one byte leads to in each state, when the rows of the receiver take
place, and the CRC register bit by bit (R143). -/

namespace Sys2Proof.Machine

/-! ## One byte, by the receiver's state -/

namespace Receiver

variable {r : Receiver} {b : Byte}

theorem takeByte_of_hunt (h : r.state = .hunt) : r.takeByte b = .goesOn (r.takeHunt b) := by
  simp only [Receiver.takeByte, h]

theorem takeByte_of_sync2 (h : r.state = .sync2) : r.takeByte b = .goesOn (r.takeSync2 b) := by
  simp only [Receiver.takeByte, h]

theorem takeByte_of_header (h : r.state = .header) : r.takeByte b = r.takeHeader b := by
  simp only [Receiver.takeByte, h]

theorem takeByte_of_payload (h : r.state = .payload) : r.takeByte b = .goesOn (r.takePayload b) := by
  simp only [Receiver.takeByte, h]

theorem takeByte_of_check (h : r.state = .check) : r.takeByte b = r.takeCheck b := by
  simp only [Receiver.takeByte, h]

theorem takeHunt_of_eq (h : b = 0xC3) : r.takeHunt b = { r with state := .sync2 } := if_pos h

theorem takeHunt_of_ne (h : b ≠ 0xC3) : r.takeHunt b = r := if_neg h

theorem takeSync2_of_pair (h : b = 0x3C) : r.takeSync2 b = ⟨.header, some [], 0xFFFF, 0, r.undecided⟩ := if_pos h

theorem takeSync2_of_first (h : b = 0xC3) : r.takeSync2 b = r := by
  subst h
  rfl

theorem takeSync2_of_other (h : b ≠ 0x3C) (h' : b ≠ 0xC3) : r.takeSync2 b = { r with state := .hunt } :=
  (if_neg h).trans (if_neg h')

/-- A LEN above 64 drops the frame (R147). -/
theorem takeHeader_of_long (hp : r.partialFrame = some []) (h : 64 < b.toNat) : r.takeHeader b = .bad := by
  simp only [Receiver.takeHeader, hp]
  exact if_pos ⟨rfl, h⟩

theorem takeHeader_len (hp : r.partialFrame = some []) (h : b.toNat ≤ 64) :
    r.takeHeader b = .goesOn ⟨.header, some [b], crcByte r.crc b, 0, r.undecided⟩ := by
  simp only [Receiver.takeHeader, hp]
  exact if_neg fun hlong => Nat.not_lt.mpr h hlong.2

theorem takeHeader_kind {len : Byte} (hp : r.partialFrame = some [len]) :
    r.takeHeader b = .goesOn ⟨.header, some [len, b], crcByte r.crc b, 0, r.undecided⟩ := by
  simp only [Receiver.takeHeader, hp]
  rfl

/-- With the TAG the header is complete; without a payload the CRC follows (R147). -/
theorem takeHeader_tag {len kind : Byte} (hp : r.partialFrame = some [len, kind]) :
    r.takeHeader b =
      .goesOn ⟨if len = 0 then .check else .payload, some [len, kind, b], crcByte r.crc b, 0, r.undecided⟩ := by
  have hlen : lenOf [len, kind, b] = 0 ↔ len = 0 := BitVec.toNat_inj (y := 0)
  simp only [Receiver.takeHeader, hp]
  refine (if_neg fun hlong => by simp at hlong).trans ?_
  simp [hlen]

theorem takePayload_eq {len kind tag : Byte} {rest : List Byte}
    (hp : r.partialFrame = some (len :: kind :: tag :: rest)) :
    r.takePayload b = ⟨if rest.length + 1 < len.toNat then .payload else .check,
      some (len :: kind :: tag :: (rest ++ [b])), crcByte r.crc b, 0, r.undecided⟩ := by
  have hlen : lenOf (len :: kind :: tag :: (rest ++ [b])) = len.toNat := rfl
  have hmore : rest.length + 1 + 1 + 1 + 1 < 3 + len.toNat ↔ rest.length + 1 < len.toNat := by omega
  simp [Receiver.takePayload, hp, hlen, hmore]

/-- The first received CRC byte is kept beside the frame's bytes (R148). -/
theorem takeCheck_first {len kind tag : Byte} {rest : List Byte}
    (hp : r.partialFrame = some (len :: kind :: tag :: rest)) (hl : rest.length = len.toNat) :
    r.takeCheck b = .goesOn { r with partialFrame := some (len :: kind :: tag :: (rest ++ [b])), gap := 0 } := by
  have hlen : lenOf (len :: kind :: tag :: (rest ++ [b])) = len.toNat := rfl
  simp only [Receiver.takeCheck, hp, Option.getD_some, List.cons_append, hlen]
  exact if_pos (by simp [hl]; omega)

/-- No byte outside CHECK ends a good frame. -/
theorem takeByte_isGood_of_not_check (h : r.state ≠ .check) : (r.takeByte b).isGood = false := by
  unfold Receiver.takeByte
  cases hs : r.state with
  | hunt => rfl
  | sync2 => rfl
  | payload => rfl
  | brk => rfl
  | check => exact absurd hs h
  | header =>
    simp only [Receiver.takeHeader]
    split <;> rfl

end Receiver

/-! ## When the rows of the receiver take place -/

section

variable {s : State} {w : Nat} {l : Link} {b : Byte} {r : Receiver} {c : Command}

theorem State.listening_advance (s : State) (w : Nat) (l : Link) : (s.advance w).listening l = s.listening l := by
  simp only [State.listening, State.advance_rx_state]

theorem State.listening_iff (s : State) (l : Link) : s.listening l = true ↔ (s.links.get l).rx.state ≠ .brk := by
  simp [State.listening]

theorem State.not_hears_iff (s : State) (l : Link) :
    s.hears l = false ↔ (s.links.get l).rx.state = .brk ∨ (s.links.get l).rx.undecided = true := by
  rw [← Bool.not_eq_true, State.hears_iff, Classical.not_and_iff_not_or_not, ne_eq, Classical.not_not, Bool.not_eq_false]

theorem exec_byteReceived_unheard (stop : StopBit) (h : (s.advance w).hears l = false) :
    exec (.byteReceived w l stop) s = .next s := by
  simp only [exec, execByteReceived]
  exact State.atInstant_of_not_occurs _ h

theorem exec_byteReceived_heard (stop : StopBit) (hw : s.mayWait w) (h : (s.advance w).hears l = true) :
    exec (.byteReceived w l stop) s = .next ((s.advance w).stopBit l stop) := by
  simp only [exec, execByteReceived]
  exact State.atInstant_of_occurs _ hw h

theorem State.receive_of_goesOn (h : (s.links.get l).rx.takeByte b = .goesOn r) :
    s.receive l b = s.onLink l (fun k => { k with rx := r }) := by
  simp only [State.receive, h]
  rfl

theorem State.receive_of_bad (h : (s.links.get l).rx.takeByte b = .bad) :
    s.receive l b = s.onLink l LinkState.dropBad := by
  simp only [State.receive, h]

theorem State.receive_of_good (h : (s.links.get l).rx.takeByte b = .good c) :
    s.receive l b = s.acceptFrame l c := by
  simp only [State.receive, h]

theorem exec_badFrame_of_bad (hw : s.mayWait w) (hears : (s.advance w).hears l = true)
    (h : ((s.advance w).links.get l).rx.takeByte b = .bad) :
    exec (.badFrame w l b) s = .next ((s.advance w).onLink l LinkState.dropBad) := by
  simp only [exec, execBadFrame]
  exact State.atInstant_of_occurs _ hw (by rw [hears, h]; rfl)

theorem exec_badFrame_of_not_bad (h : (((s.advance w).links.get l).rx.takeByte b).isBad = false) :
    exec (.badFrame w l b) s = .next s := by
  simp only [exec, execBadFrame]
  exact State.atInstant_of_not_occurs _ (by rw [h, Bool.and_false])

theorem exec_goodFrame_of_good (hw : s.mayWait w) (hears : (s.advance w).hears l = true)
    (h : ((s.advance w).links.get l).rx.takeByte b = .good c) :
    exec (.goodFrame w l b) s = .next ((s.advance w).receive l b) := by
  simp only [exec, execGoodFrame]
  exact State.atInstant_of_occurs _ hw (by rw [hears, h]; rfl)

theorem exec_goodFrame_of_not_good (h : (((s.advance w).links.get l).rx.takeByte b).isGood = false) :
    exec (.goodFrame w l b) s = .next s := by
  simp only [exec, execGoodFrame]
  exact State.atInstant_of_not_occurs _ (by rw [h, Bool.and_false])

theorem exec_goodFrame_unheard (h : (s.advance w).hears l = false) : exec (.goodFrame w l b) s = .next s := by
  simp only [exec, execGoodFrame]
  exact State.atInstant_of_not_occurs _ (by rw [h, Bool.false_and])

theorem exec_framingError_listening (hw : s.mayWait w) (h : (s.advance w).listening l = true) :
    exec (.framingError w l) s = .next ((s.advance w).onLink l LinkState.framingError) := by
  simp only [exec, execFramingError]
  exact State.atInstant_of_occurs _ hw h

theorem exec_framingError_not_listening (h : (s.advance w).listening l = false) :
    exec (.framingError w l) s = .next s := by
  simp only [exec, execFramingError]
  exact State.atInstant_of_not_occurs _ h

/-- The gap is timed in the three states inside a frame, while no byte is undecided (R149). -/
theorem State.advance_timing (s : State) (w : Nat) (l : Link) :
    ((s.advance w).links.get l).rx.timing = (s.links.get l).rx.timing := by
  rw [State.advance_links]
  rfl

theorem exec_interByteTimeout_timing (hw : s.mayWait (500000 - (s.links.get l).rx.gap))
    (h : (s.links.get l).rx.timing = true) :
    exec (.interByteTimeout l) s =
      .next ((s.advance (500000 - (s.links.get l).rx.gap)).onLink l LinkState.timeOut) := by
  simp only [exec, execInterByteTimeout]
  exact State.atInstant_of_occurs _ hw ((s.advance_timing _ l).trans h)

theorem exec_interByteTimeout_not_timing (h : (s.links.get l).rx.timing = false) :
    exec (.interByteTimeout l) s = .next s := by
  simp only [exec, execInterByteTimeout]
  exact State.atInstant_of_not_occurs _ ((s.advance_timing _ l).trans h)

/-- A good frame's command arrives as the station command of the same KIND, TAG and payload (R152). -/
theorem exec_arrival_of_frame {i : Instr} (hpower : s.powered = true) (harrival : i.arrival = some (0, l, c)) :
    exec i (s.onLink l (fun k => k.setRx k.rx.toHunt)) = .next (s.acceptFrame l c) := by
  have hears : (s.onLink l (fun k => k.setRx k.rx.toHunt)).hears l = true := by
    rw [State.hears_iff, State.onLink_get_same]
    exact ⟨(fun h => by cases h), rfl⟩
  have hwait : (s.onLink l (fun k => k.setRx k.rx.toHunt)).mayWait 0 := State.mayWait_zero hpower
  rw [exec_arrival harrival hwait hears, State.advance_zero]
  rfl

end

/-! ## The CRC register, bit by bit (R143) -/

/-- The register after the first bits of a byte have entered it one by one. -/
def crcSerial (c : Half) (b : Byte) : Nat → Half
  | 0 => c
  | i + 1 =>
    (crcSerial c b i <<< 1) ^^^ (if (crcSerial c b i).getLsbD 15 ^^ b.getLsbD (7 - i) then 0x1021 else 0)

/-- A shift of the register with other bits added to it: they shift beside it, and their first bit joins the test. -/
theorem crcBit_xor (f g : Half) :
    crcBit (f ^^^ g) = ((f <<< 1) ^^^ (if f.getLsbD 15 ^^ g.getLsbD 15 then (0x1021 : Half) else 0)) ^^^ (g <<< 1) := by
  have hmsb : (f ^^^ g).msb = (f.getLsbD 15 ^^ g.getLsbD 15) := by
    rw [BitVec.msb_xor, BitVec.msb_eq_getLsbD_last, BitVec.msb_eq_getLsbD_last]
  rw [crcBit, hmsb, BitVec.shiftLeft_xor_distrib]
  cases f.getLsbD 15 ^^ g.getLsbD 15
  · simp
  · simp only [if_true, BitVec.xor_assoc, BitVec.xor_comm (g <<< 1)]

/-- One more bit of the byte enters: of the byte added at the front, the bits not yet entered are left. -/
theorem crcBit_serial (c : Half) (b : Byte) {i : Nat} (hi : i < 8) :
    crcBit (crcSerial c b i ^^^ ((b ++ (0 : Byte)) <<< i)) = crcSerial c b (i + 1) ^^^ ((b ++ (0 : Byte)) <<< (i + 1)) := by
  have hfront : ((b ++ (0 : Byte)) <<< i).getLsbD 15 = b.getLsbD (7 - i) := by
    rw [BitVec.getLsbD_shiftLeft, BitVec.getLsbD_append, show 15 - i - 8 = 7 - i by omega]
    simp [show ¬ 15 < i by omega, show ¬ 15 - i < 8 by omega]
  rw [crcBit_xor, hfront, crcSerial, BitVec.shiftLeft_add]

theorem crcByte_eq_serial (c : Half) (b : Byte) : crcByte c b = crcSerial c b 8 := by
  have hstart : c ^^^ (b ++ (0 : Byte)) = crcSerial c b 0 ^^^ ((b ++ (0 : Byte)) <<< 0) := by
    rw [BitVec.shiftLeft_zero]
    rfl
  have hentered : (b ++ (0 : Byte)) <<< 8 = 0 := by
    refine BitVec.eq_of_getLsbD_eq fun i hi => ?_
    simp only [BitVec.getLsbD_shiftLeft, BitVec.getLsbD_append]
    by_cases hlow : i < 8
    · simp [hlow]
    · simp [show i - 8 < 8 by omega]
  rw [crcByte, hstart, crcBit_serial c b (by omega), crcBit_serial c b (by omega), crcBit_serial c b (by omega),
    crcBit_serial c b (by omega), crcBit_serial c b (by omega), crcBit_serial c b (by omega),
    crcBit_serial c b (by omega), crcBit_serial c b (by omega), hentered]
  exact BitVec.xor_zero

end Sys2Proof.Machine

namespace Sys2Proof.Proofs

open Sys2Proof.Machine

/-- Settles O25, by the way in which the frame is dropped. -/
theorem brokenFramesAreDroppedAndCounted : Obligations.BrokenFramesAreDroppedAndCounted := by
  intro s w l b hunt a rx
  have hstate : (a.links.get l).rx.state = rx.state := s.advance_rx_state w l
  refine ⟨fun hw hlistens => ?framing, fun hw hbreak => ?framingInBreak, fun hw hdecided hframe => ?timeout,
    fun houtside => ?noTimeout, fun hw hdecided hbad => ?bad⟩
  case framing =>
    rw [exec_framingError_listening hw ((a.listening_iff l).mpr (by rwa [hstate]))]
    rfl
  case framingInBreak =>
    exact exec_framingError_not_listening (Bool.eq_false_iff.mpr fun h => (a.listening_iff l).mp h (hstate.trans hbreak))
  case timeout =>
    have htiming : rx.timing = true := (Receiver.timing_iff rx).mpr ⟨hframe, hdecided⟩
    rw [exec_interByteTimeout_timing hw htiming]
    rfl
  case noTimeout =>
    refine exec_interByteTimeout_not_timing (Bool.eq_false_iff.mpr fun h => ?_)
    obtain ⟨hframe, hdecided⟩ := (Receiver.timing_iff rx).mp h
    rcases houtside with hrx | hrx | hrx | hrx
    case inr.inr.inr => exact Bool.false_ne_true (hdecided.symm.trans hrx)
    all_goals rw [hrx] at hframe; simp at hframe
  case bad =>
    have hears : a.hears l = true := by
      rw [State.hears_advance, State.hears_iff]
      refine ⟨fun hbreak => ?_, hdecided⟩
      rcases hbad with ⟨h, -⟩ | ⟨_, _, _, _, _, h, -⟩
      · exact RxState.noConfusion (hbreak.symm.trans h)
      · exact RxState.noConfusion (hbreak.symm.trans h)
    have hpartial : (a.links.get l).rx.partialFrame = rx.partialFrame := s.advance_partialFrame w l
    have hcrc : (a.links.get l).rx.crc = rx.crc := s.advance_crc w l
    have hdropped : (a.links.get l).rx.takeByte b = .bad := by
      rcases hbad with ⟨h, hp, hlong⟩ | ⟨len, kind, tag, rest, hi, h, hp, hl, hne⟩
      · rw [Receiver.takeByte_of_header (hstate.trans h), Receiver.takeHeader_of_long (hpartial.trans hp) hlong]
      · rw [Receiver.takeByte_of_check (hstate.trans h),
          Receiver.takeCheck_eq _ _ _ _ _ _ _ (hpartial.trans hp) hl, if_neg (hcrc ▸ hne)]
    rw [exec_badFrame_of_bad hw hears hdropped]
    rfl

/-- Settles O26, by the receiver's state and, inside a frame, by the bytes received. -/
theorem byteMovesTheReceiver : Obligations.ByteMovesTheReceiver := by
  intro s w l b hw rx go dropped taken
  have hdeaf (h : rx.state = .brk ∨ rx.undecided = true) : (s.advance w).hears l = false :=
    ((s.advance w).not_hears_iff l).mpr h
  have hhears (h : rx.state ≠ .brk) (hdecided : rx.undecided = false) : (s.advance w).hears l = true :=
    ((s.advance w).hears_iff l).mpr ⟨h, hdecided⟩
  refine ⟨fun h => ⟨exec_byteReceived_unheard _ (hdeaf h), exec_byteReceived_unheard _ (hdeaf h)⟩,
    fun h hdecided => ?spacing, fun hdecided => ?marking⟩
  case spacing =>
    rw [exec_byteReceived_heard .spacing hw (hhears h hdecided)]
    exact congrArg _ ((s.advance w).onLink_congr l _ _ rfl)
  case marking =>
    have hgo {r : Receiver} (h : rx.state ≠ .brk) (hr : rx.takeByte b = .goesOn r) : taken = go r :=
      (exec_byteReceived_heard (.marking b) hw (hhears h hdecided)).trans (congrArg _ (State.receive_of_goesOn hr))
    have hdropped (h : rx.state ≠ .brk) (hr : rx.takeByte b = .bad) :
        taken = dropped ∧ exec (.badFrame w l b) s = dropped :=
      ⟨(exec_byteReceived_heard (.marking b) hw (hhears h hdecided)).trans (congrArg _ (State.receive_of_bad hr)),
        exec_badFrame_of_bad hw (hhears h hdecided) hr⟩
    have hnot {st : RxState} (h : rx.state = st) (hne : st ≠ .brk) : rx.state ≠ .brk := h ▸ hne
    refine ⟨fun h hb => hgo (hnot h (by decide)) ?hunt, fun h hb => hgo (hnot h (by decide)) ?huntPair,
      fun h hb => hgo (hnot h (by decide)) ?sync2, fun h hb => hgo (hnot h (by decide)) ?sync2Stays,
      fun h hb hb' => hgo (hnot h (by decide)) ?sync2Leaves, fun h hp hb => hgo (hnot h (by decide)) ?len,
      fun len h hp => hgo (hnot h (by decide)) ?kind, fun len kind h hp => hgo (hnot h (by decide)) ?tag,
      fun len kind tag rest h hp _ => hgo (hnot h (by decide)) ?payload,
      fun len kind tag rest h hp hl => hgo (hnot h (by decide)) ?check,
      fun h hp hlong => hdropped (hnot h (by decide)) ?long, fun len kind tag rest hi h hp hl => ?crc⟩
    case hunt => rw [Receiver.takeByte_of_hunt h, Receiver.takeHunt_of_ne hb]
    case huntPair => rw [Receiver.takeByte_of_hunt h, Receiver.takeHunt_of_eq hb]
    case sync2 => rw [Receiver.takeByte_of_sync2 h, Receiver.takeSync2_of_pair hb, hdecided]
    case sync2Stays => rw [Receiver.takeByte_of_sync2 h, Receiver.takeSync2_of_first hb]
    case sync2Leaves => rw [Receiver.takeByte_of_sync2 h, Receiver.takeSync2_of_other hb hb']
    case len => rw [Receiver.takeByte_of_header h, Receiver.takeHeader_len hp hb, hdecided]
    case kind => rw [Receiver.takeByte_of_header h, Receiver.takeHeader_kind hp, hdecided]
    case tag => rw [Receiver.takeByte_of_header h, Receiver.takeHeader_tag hp, hdecided]
    case payload => rw [Receiver.takeByte_of_payload h, Receiver.takePayload_eq hp, hdecided]
    case check => rw [Receiver.takeByte_of_check h, Receiver.takeCheck_first hp hl]
    case long => rw [Receiver.takeByte_of_header h, Receiver.takeHeader_of_long hp hlong]
    case crc =>
      have hcheck := Receiver.takeCheck_eq rx b len kind tag hi rest hp hl
      refine ⟨fun hne => hdropped (hnot h (by decide)) ?bad, fun heq => ?good⟩
      case bad => rw [Receiver.takeByte_of_check h, hcheck, if_neg hne]
      case good =>
        have hgood : rx.takeByte b = .good ⟨kind, tag, rest⟩ := by
          rw [Receiver.takeByte_of_check h, hcheck, if_pos heq]
        exact (exec_byteReceived_heard (.marking b) hw (hhears (hnot h (by decide)) hdecided)).trans
          (exec_goodFrame_of_good hw (hhears (hnot h (by decide)) hdecided) hgood).symm

/-- Settles O27: the byte that ends a good frame is the second CRC byte, and its command arrives as any other. -/
theorem goodFrameHandsItsCommandToTheQueue : Obligations.GoodFrameHandsItsCommandToTheQueue := by
  refine ⟨fun s w l b => ?other, fun s w l len kind tag hi lo payload i => ?good⟩
  case other =>
    intro rx
    have hstate : ((s.advance w).links.get l).rx.state = rx.state := s.advance_rx_state w l
    have hpartial : ((s.advance w).links.get l).rx.partialFrame = rx.partialFrame := s.advance_partialFrame w l
    have hcrc : ((s.advance w).links.get l).rx.crc = rx.crc := s.advance_crc w l
    refine ⟨fun houtside => ?outside, fun len kind tag rest hp => ⟨fun h hl => ?first, ?second⟩⟩
    case outside =>
      rcases houtside with hcheck | hundecided
      · exact exec_goodFrame_of_not_good (Receiver.takeByte_isGood_of_not_check (by rwa [hstate]))
      · refine exec_goodFrame_unheard ?_
        rw [State.hears_advance, State.not_hears_iff]
        exact .inr hundecided
    case first =>
      refine exec_goodFrame_of_not_good ?_
      rw [Receiver.takeByte_of_check (hstate.trans h), Receiver.takeCheck_first (hpartial.trans hp) hl]
      rfl
    case second =>
      rintro payload hi rfl hl h
      have hcheck := Receiver.takeCheck_eq _ b len kind tag hi payload (hpartial.trans hp) hl
      refine ⟨fun hne => exec_goodFrame_of_not_good ?_, fun heq => exec_badFrame_of_not_bad ?_⟩
      · rw [Receiver.takeByte_of_check (hstate.trans h), hcheck, if_neg (hcrc ▸ hne)]
        rfl
      · rw [Receiver.takeByte_of_check (hstate.trans h), hcheck, if_pos (hcrc ▸ heq)]
        rfl
  case good =>
    intro rx hw hdecided hstate hp hl hcrc harrival
    have hears : (s.advance w).hears l = true := by
      rw [State.hears_advance, State.hears_iff]
      exact ⟨fun hbreak => RxState.noConfusion (hbreak.symm.trans hstate), hdecided⟩
    have hgood : ((s.advance w).links.get l).rx.takeByte lo = .good ⟨kind, tag, payload⟩ := by
      rw [Receiver.takeByte_of_check ((s.advance_rx_state w l).trans hstate),
        Receiver.takeCheck_eq _ lo len kind tag hi payload ((s.advance_partialFrame w l).trans hp) hl,
        if_pos (hcrc.trans (s.advance_crc w l).symm)]
    refine ⟨_, exec_goodFrame_of_good hw hears hgood, ?_⟩
    rw [State.receive_of_good hgood]
    exact exec_arrival_of_frame (by simpa using hw.1) harrival

/-- Settles O28: the register of a byte is the bit-serial one, and the CRC's two bytes follow the body. -/
theorem framesEndWithTheirCrc : Obligations.FramesEndWithTheirCrc := by
  refine ⟨rfl, crcOf_append, fun c b => ⟨crcSerial c b, rfl, crcByte_eq_serial c b, fun i _ => rfl⟩, by decide +kernel,
    fun body => ⟨_, _, u16At_be16 (crcOf body) [], rfl⟩⟩

end Sys2Proof.Proofs
end

section
/-! SUPPORT. The transmitter of a link (R154, R157, R158, R163, R164, R170) and its breaks (R150, R151): what is chosen to
begin, what each end of a frame leaves, and what a break takes from a link. -/

namespace Sys2Proof.Machine

/-! ## A break -/

section

variable {s : State} {w : Nat} {l : Link}

theorem exec_lineBreak_listening (hw : s.mayWait w) (h : (s.advance w).listening l = true) :
    exec (.lineBreak w l) s = .next ((s.advance w).startBreak l) := by
  simp only [exec, execLineBreak]
  exact State.atInstant_of_occurs _ hw h

theorem exec_lineBreak_in_break (h : (s.advance w).listening l = false) : exec (.lineBreak w l) s = .next s := by
  simp only [exec, execLineBreak]
  exact State.atInstant_of_not_occurs _ h

theorem exec_breakEnd_in_break (hw : s.mayWait w) (h : (s.advance w).listening l = false) :
    exec (.breakEnd w l) s =
      .next ((s.advance w).onLink l (fun k => { k with rx := { k.rx with state := .hunt } })) := by
  simp only [exec, execBreakEnd]
  exact State.atInstant_of_occurs _ hw (by rw [h]; rfl)

theorem exec_breakEnd_listening (h : (s.advance w).listening l = true) : exec (.breakEnd w l) s = .next s := by
  simp only [exec, execBreakEnd]
  exact State.atInstant_of_not_occurs _ (by rw [h]; rfl)

end

section

variable {l h : Link} {sh : CalSet} {idle : Nat} {broken : Bool}

/-- A break on the holder's link abandons its edit (R116). -/
theorem Edit.onBreak_of_holder : Edit.onBreak l (.editing l sh idle) = .none := if_pos rfl

theorem Edit.onBreak_of_other (hother : h ≠ l) : Edit.onBreak l (.editing h sh idle) = .editing h sh idle := if_neg hother

theorem Edit.onBreak_of_committing_holder : Edit.onBreak l (.committing l sh broken) = .committing l sh true := by
  simp [Edit.onBreak]

theorem Edit.onBreak_of_committing_other (hother : h ≠ l) :
    Edit.onBreak l (.committing h sh broken) = .committing h sh broken := by
  simp [Edit.onBreak, hother]

end

/-! ## What the transmitter chooses (R157) -/

section

variable {k : LinkState} {e : Executing} {r : Reply} {t : Transfer}

theorem LinkState.choice_of_blocked (next : Word) (h : k.ready = false ∨ k.tx ≠ none) : k.choice next = none := by
  rw [← Option.not_isSome_iff_eq_none, LinkState.choice_isSome_iff]
  rintro ⟨hready, hidle, -⟩
  rcases h with h | h
  · exact Bool.false_ne_true (h.symm.trans hready)
  · exact h hidle

variable (next : Word) (hready : k.ready = true) (hidle : k.tx = none)
include hready hidle

theorem LinkState.choice_of_reply (he : k.executing = some e) (hr : e.reply = some r) : k.choice next = some .reply := by
  simp [LinkState.choice, hready, hidle, he, hr]

theorem LinkState.choice_of_transfer (he : k.executing = some e) (hr : e.reply = none) (ht : e.transfer = some t)
    (hrunning : t.phase = .running) (hshort : t.delivered < t.requested) (hbehind : k.cursor ≠ next) :
    k.choice next = some .transfer := by
  simp [LinkState.choice, LinkState.transferReady, LinkState.behind, hready, hidle, he, hr, ht, hrunning, hshort, hbehind]

theorem LinkState.choice_of_stream (hstream : k.stream = true) (hbehind : k.cursor ≠ next)
    (he : k.executing = none ∨ ∃ e, k.executing = some e ∧ e.reply = none ∧ e.transfer = none) :
    k.choice next = some .stream := by
  have hchoice : k.streamChoice next = some .stream := by
    simp [LinkState.streamChoice, LinkState.behind, hstream, hbehind]
  rcases he with he | ⟨e, he, hr, ht⟩
  · simp [LinkState.choice, hready, hidle, he, hchoice]
  · simp [LinkState.choice, hready, hidle, he, hr, ht, hchoice]

end

theorem State.begins_iff (s : State) (l : Link) (c : Choice) :
    s.begins l c = true ↔ (s.links.get l).choice s.ring.next = some c ∧ s.resetDue = false := by
  simp [State.begins]

theorem State.not_begins_of_choice {s : State} {l : Link} {c d : Choice}
    (h : (s.links.get l).choice s.ring.next = some d) (hne : d ≠ c) : s.begins l c = false := by
  rw [← Bool.not_eq_true, State.begins_iff, h]
  exact fun hboth => hne (Option.some.inj hboth.1)

theorem State.not_begins_of_blocked {s : State} {l : Link} (c : Choice)
    (h : (s.links.get l).choice s.ring.next = none) : s.begins l c = false := by
  rw [← Bool.not_eq_true, State.begins_iff, h]
  exact fun hboth => Option.some_ne_none _ hboth.1.symm

/-! ## When a frame begins -/

section

variable {s : State} {l : Link}

theorem exec_replyBegin_begins (hpower : s.powered = true) (h : s.begins l .reply = true) :
    exec (.replyBegin l) s = .next (s.onLink l LinkState.beginReply) := by
  simp only [exec, execReplyBegin]
  rw [State.atInstant_of_occurs _ (State.mayWait_zero hpower) (by rwa [State.advance_zero]), State.advance_zero]

theorem exec_replyBegin_not (h : s.begins l .reply = false) : exec (.replyBegin l) s = .next s := by
  simp only [exec, execReplyBegin]
  exact State.atInstant_of_not_occurs _ (by rwa [State.advance_zero])

theorem exec_transferFrameBegin_begins (hpower : s.powered = true) (h : s.begins l .transfer = true) :
    exec (.transferFrameBegin l) s = .next (s.beginTransferFrame l) := by
  simp only [exec, execTransferFrameBegin]
  rw [State.atInstant_of_occurs _ (State.mayWait_zero hpower) (by rwa [State.advance_zero]), State.advance_zero]

theorem exec_transferFrameBegin_not (h : s.begins l .transfer = false) : exec (.transferFrameBegin l) s = .next s := by
  simp only [exec, execTransferFrameBegin]
  exact State.atInstant_of_not_occurs _ (by rwa [State.advance_zero])

theorem exec_streamFrameBegin_begins (hpower : s.powered = true) (h : s.begins l .stream = true) :
    exec (.streamFrameBegin l) s = .next (s.beginStreamFrame l) := by
  simp only [exec, execStreamFrameBegin]
  rw [State.atInstant_of_occurs _ (State.mayWait_zero hpower) (by rwa [State.advance_zero]), State.advance_zero]

theorem exec_streamFrameBegin_not (h : s.begins l .stream = false) : exec (.streamFrameBegin l) s = .next s := by
  simp only [exec, execStreamFrameBegin]
  exact State.atInstant_of_not_occurs _ (by rwa [State.advance_zero])

/-! ## What a frame that begins carries -/

theorem LinkState.beginReply_of_reply {k : LinkState} {e : Executing} {r : Reply} (he : k.executing = some e)
    (hr : e.reply = some r) :
    k.beginReply = { k with
      tx := some ⟨.reply true, replyFrame e.command.kind e.command.tag r.status k.displaced r.payload⟩
      displaced := 0 } := by
  simp only [LinkState.beginReply, he, hr]

theorem State.beginTransferFrame_of_find {q : SeqRecord} {e : Executing}
    (hfind : s.ring.find (s.links.get l).cursor = some q) (he : (s.links.get l).executing = some e) :
    s.beginTransferFrame l = s.onLink l
      (fun k => { k with tx := some ⟨.transfer true q, recordFrame transferKind e.command.tag q.payload⟩ }) := by
  have htag : (s.links.get l).executingTag = e.command.tag := by rw [LinkState.executingTag, he]
  simp only [State.beginTransferFrame, hfind]
  exact s.onLink_congr l _ _ (by rw [htag])

theorem State.beginStreamFrame_of_find {q : SeqRecord} (hfind : s.ring.find (s.links.get l).cursor = some q) :
    s.beginStreamFrame l = s.onLink l
      (fun k => { k with tx := some ⟨.stream q, recordFrame streamKind k.streamTag q.payload⟩ }) := by
  simp only [State.beginStreamFrame, hfind]

end

/-! ## The ends of frames -/

theorem LinkState.deliver_eq (k : LinkState) (carried : Word) :
    k.deliver carried = { k with cursor := if k.cursor = carried then carried + 1 else k.cursor } := by
  unfold LinkState.deliver
  split <;> rfl

/-- The waiting command moves up as if it entered the slot of an idle link (R154). -/
theorem State.begin_onLink (s : State) (l : Link) (c : Command) (f g : LinkState → LinkState)
    (h : ∀ k, LinkState.enter c (f k) = LinkState.enter c (g k)) : (s.onLink l f).begin l c = (s.onLink l g).begin l c := by
  simp only [State.begin, State.onLink_onLink, h]

section

variable {s : State} {w : Nat} {l : Link} {bytes : List Byte} {q : SeqRecord}

theorem exec_replySent_sends (hw : s.mayWait w) (h : ((s.advance w).links.get l).sendsReply = true) :
    exec (.replySent w l) s = .next ((s.advance w).endReply l) := by
  simp only [exec, execReplySent]
  exact State.atInstant_of_occurs _ hw h

theorem LinkState.sendsReply_of_reply {k : LinkState} {owned : Bool} (h : k.tx = some ⟨.reply owned, bytes⟩) :
    k.sendsReply = true := by
  rw [LinkState.sendsReply, h]

theorem State.endReply_of_disowned (h : (s.links.get l).tx = some ⟨.reply false, bytes⟩) :
    s.endReply l = s.onLink l LinkState.lineIdle := by
  rw [State.endReply, h]

theorem State.endReply_of_owned (h : (s.links.get l).tx = some ⟨.reply true, bytes⟩) :
    s.endReply l = (s.onLink l LinkState.lineIdle).leave l := by
  rw [State.endReply, h]

theorem State.leave_of_none (h : (s.links.get l).waiting = none) :
    s.leave l = s.onLink l (fun k => { k with executing := none }) := by
  rw [State.leave, h]

theorem State.leave_of_some {c : Command} (h : (s.links.get l).waiting = some c) :
    s.leave l = (s.onLink l (fun k => { k with waiting := none })).begin l c := by
  rw [State.leave, h]

theorem exec_transferFrameDelivered_sends {owned : Bool} (hw : s.mayWait w)
    (h : ((s.advance w).links.get l).tx = some ⟨.transfer owned q, bytes⟩) :
    exec (.transferFrameDelivered w l) s =
      .next ((s.advance w).onLink l (LinkState.endTransferFrame (s.advance w).ring.next)) := by
  simp only [exec, execTransferFrameDelivered]
  exact State.atInstant_of_occurs _ hw (by rw [LinkState.sendsTransfer, h])

theorem exec_streamFrameDelivered_sends (hw : s.mayWait w)
    (h : ((s.advance w).links.get l).tx = some ⟨.stream q, bytes⟩) :
    exec (.streamFrameDelivered w l) s = .next ((s.advance w).onLink l LinkState.endStreamFrame) := by
  simp only [exec, execStreamFrameDelivered]
  exact State.atInstant_of_occurs _ hw (by rw [LinkState.sendsStream, h])

end

section

variable {k : LinkState} {q : SeqRecord} {bytes : List Byte} {next : Word}

theorem LinkState.endStreamFrame_of_stream (h : k.tx = some ⟨.stream q, bytes⟩) :
    k.endStreamFrame = { k with tx := none, cursor := if k.cursor = q.seq then q.seq + 1 else k.cursor } := by
  simp only [LinkState.endStreamFrame, h, LinkState.deliver_eq]
  rfl

theorem LinkState.endTransferFrame_of_disowned (h : k.tx = some ⟨.transfer false q, bytes⟩) :
    k.endTransferFrame next = { k with tx := none, cursor := if k.cursor = q.seq then q.seq + 1 else k.cursor } := by
  simp only [LinkState.endTransferFrame, h, LinkState.deliver_eq]
  rfl

/-- A transfer's own frame: cursor and delivered count move, and the end test is made (R164). -/
theorem LinkState.endTransferFrame_of_owned {c : Command} {reply : Option Reply} {t : Transfer}
    (h : k.tx = some ⟨.transfer true q, bytes⟩) (he : k.executing = some ⟨c, reply, some t⟩) :
    k.endTransferFrame next =
      LinkState.endTest next
        { k with
          tx := none
          cursor := if k.cursor = q.seq then q.seq + 1 else k.cursor
          executing := some ⟨c, reply, some { t with delivered := t.delivered + 1 }⟩ } := by
  simp only [LinkState.endTransferFrame, h, LinkState.deliver_eq, LinkState.countDelivered, LinkState.lineIdle, he]
  rfl

end

end Sys2Proof.Machine

namespace Sys2Proof.Proofs

open Sys2Proof.Machine

/-- Settles O29: the edit after the break is `Edit.onBreak`, and the frame on the line goes on disowned. -/
theorem breakClearsTheLinksConversation : Obligations.BreakClearsTheLinksConversation := by
  intro s w l hw a rx
  have hlistens : a.listening l = true ↔ rx.state ≠ .brk := by rw [State.listening_advance, State.listening_iff]
  have hbreak (h : rx.state = .brk) : a.listening l = false := Bool.eq_false_iff.mpr fun hl => hlistens.mp hl h
  refine ⟨fun h => ⟨a.cal.edit.onBreak l, (a.links.get l).tx.map (fun t => { t with what := t.what.disown }), ?starts,
      fun htx => ?idle, fun owned bytes htx => ?reply, fun owned q bytes htx => ?transfer, fun q bytes htx => ?stream,
      fun sh idle he => ?holder, fun g sh idle hother he => ?other, fun sh b he => ?committingHolder,
      fun g sh b hother he => ?committingOther, fun he => ?none⟩,
    fun h => exec_lineBreak_in_break (hbreak h), fun h => exec_breakEnd_in_break hw (hbreak h),
    fun h => exec_breakEnd_listening (hlistens.mpr h)⟩
  case starts =>
    rw [exec_lineBreak_listening hw (hlistens.mpr h)]
    exact congrArg _ (State.onLink_congr { a with cal := { a.cal with edit := a.cal.edit.onBreak l } } l _ _ rfl)
  case idle => rw [htx]; rfl
  case reply => rw [htx]; rfl
  case transfer => rw [htx]; rfl
  case stream => rw [htx]; rfl
  case holder => rw [he, Edit.onBreak_of_holder]
  case other => rw [he, Edit.onBreak_of_other hother]
  case committingHolder => rw [he, Edit.onBreak_of_committing_holder]
  case committingOther => rw [he, Edit.onBreak_of_committing_other hother]
  case none => rw [he]; rfl

/-- Settles O30, by whose reply is on the line and by the waiting slot. -/
theorem replyCarriesDisplacedAndFreesItsSlot : Obligations.ReplyCarriesDisplacedAndFreesItsSlot := by
  refine ⟨fun s w l level hw => ?ready, ?begin, fun s w l bytes hw => ?sent⟩
  case ready =>
    simp only [exec, execReadyChange]
    exact State.atInstant_of_occurs _ hw rfl
  case begin =>
    intro s l e r hpower hreset k
    refine ⟨fun hready hidle he hr => ?begins, fun hblocked => ?blocked⟩
    case begins =>
      have hchoice : s.begins l .reply = true :=
        (s.begins_iff l .reply).mpr ⟨LinkState.choice_of_reply _ hready hidle he hr, hreset⟩
      rw [exec_replyBegin_begins hpower hchoice]
      exact congrArg _ (s.onLink_congr l _ _ (LinkState.beginReply_of_reply he hr))
    case blocked =>
      have hnone := LinkState.choice_of_blocked (k := s.links.get l) s.ring.next hblocked
      exact ⟨exec_replyBegin_not (State.not_begins_of_blocked _ hnone),
        exec_transferFrameBegin_not (State.not_begins_of_blocked _ hnone),
        exec_streamFrameBegin_not (State.not_begins_of_blocked _ hnone)⟩
  case sent =>
    intro a k
    refine ⟨fun htx => ?disowned, fun htx hwaiting => ?empties, fun htx c i hwaiting harrival => ⟨?movesUp, ?taken⟩⟩
    case disowned =>
      rw [exec_replySent_sends hw (LinkState.sendsReply_of_reply htx), State.endReply_of_disowned htx]
      rfl
    case empties =>
      have hleft : ((a.onLink l LinkState.lineIdle).links.get l).waiting = none := by
        rw [State.onLink_get_same]
        exact hwaiting
      rw [exec_replySent_sends hw (LinkState.sendsReply_of_reply htx), State.endReply_of_owned htx,
        State.leave_of_none hleft, State.onLink_onLink]
      rfl
    case movesUp =>
      have hleft : ((a.onLink l LinkState.lineIdle).links.get l).waiting = some c := by
        rw [State.onLink_get_same]
        exact hwaiting
      rw [exec_replySent_sends hw (LinkState.sendsReply_of_reply htx), State.endReply_of_owned htx,
        State.leave_of_some hleft, State.onLink_onLink]
      exact congrArg _ (a.begin_onLink l c _ _ (fun _ => rfl))
    case taken =>
      intro u hu
      rw [exec_arrival_taken harrival hu, State.advance_zero]

/-- Settles O31, by what the transmitter chooses. -/
theorem recordFrameCarriesTheRecordAtTheCursor : Obligations.RecordFrameCarriesTheRecordAtTheCursor := by
  intro s l q hpower hreset k hready hidle hbehind hfind body
  refine ⟨fun e t he hr ht hrunning hshort => ?transfer, fun hstream he => ?stream, fun e r he hr => ?reply⟩
  case transfer =>
    have hchoice : k.choice s.ring.next = some .transfer :=
      LinkState.choice_of_transfer _ hready hidle he hr ht hrunning hshort hbehind
    refine ⟨?begins, exec_streamFrameBegin_not (State.not_begins_of_choice hchoice (by decide))⟩
    rw [exec_transferFrameBegin_begins hpower ((s.begins_iff l _).mpr ⟨hchoice, hreset⟩),
      State.beginTransferFrame_of_find hfind he]
    rfl
  case stream =>
    have hchoice : k.choice s.ring.next = some .stream :=
      LinkState.choice_of_stream _ hready hidle hstream hbehind he
    rw [exec_streamFrameBegin_begins hpower ((s.begins_iff l _).mpr ⟨hchoice, hreset⟩),
      State.beginStreamFrame_of_find hfind]
    exact congrArg _ (s.onLink_congr l _ _ rfl)
  case reply =>
    have hchoice : k.choice s.ring.next = some .reply := LinkState.choice_of_reply _ hready hidle he hr
    exact ⟨exec_streamFrameBegin_not (State.not_begins_of_choice hchoice (by decide)),
      exec_transferFrameBegin_not (State.not_begins_of_choice hchoice (by decide))⟩

/-- Settles O32, by the kind of the frame and, for a transfer's own, by the end test. -/
theorem deliveryAdvancesTheCursor : Obligations.DeliveryAdvancesTheCursor := by
  intro s w l q bytes hw a k cur only
  refine ⟨fun htx => ?stream, fun htx => ?disowned, fun htx e t he ht => ?owned⟩
  case stream =>
    rw [exec_streamFrameDelivered_sends hw htx]
    exact congrArg _ (a.onLink_congr l _ _ (LinkState.endStreamFrame_of_stream htx))
  case disowned =>
    rw [exec_transferFrameDelivered_sends hw htx]
    exact congrArg _ (a.onLink_congr l _ _ (LinkState.endTransferFrame_of_disowned htx))
  case owned =>
    obtain ⟨c, reply, transfer⟩ := e
    obtain rfl : transfer = some t := ht
    rw [exec_transferFrameDelivered_sends hw htx]
    refine ⟨fun hmore => congrArg _ (a.onLink_congr l _ _ ?more), fun hdone => congrArg _ (a.onLink_congr l _ _ ?done)⟩
    case more => exact (LinkState.endTransferFrame_of_owned htx he).trans (LinkState.endTest_of_more rfl hmore.1 hmore.2)
    case done =>
      exact (LinkState.endTransferFrame_of_owned htx he).trans
        ((LinkState.endTest_of_done (t := { t with delivered := t.delivered + 1 }) rfl hdone).trans rfl)

end Sys2Proof.Proofs
end

section
/-! SUPPORT. The end of a store write (R119, R120): when it takes place, which write is chosen after it, and what it leaves
of the edit (R113, R114, R116). -/

namespace Sys2Proof.Machine

/-! ## When a write ends -/

theorem State.writeMayEnd_iff {s : State} {wr : StoreWrite} (h : s.store.inFlight = some wr) :
    s.writeMayEnd = true ↔ 200000 ≤ wr.elapsed ∧ wr.elapsed ≤ 600000 := by
  simp [State.writeMayEnd, h]

theorem exec_storeWriteEnd_ends {s : State} {w : Nat} {wr : StoreWrite} (success : Bool) (hw : s.mayWait w)
    (hwr : (s.advance w).store.inFlight = some wr) (hmin : 200000 ≤ wr.elapsed) (hmax : wr.elapsed ≤ 600000) :
    exec (.storeWriteEnd w success) s = .next ((s.advance w).endWrite wr success) := by
  have hends : (s.advance w).writeEnd success = (s.advance w).endWrite wr success := by rw [State.writeEnd, hwr]
  simp only [exec, execStoreWriteEnd]
  rw [State.atInstant_of_occurs _ hw ((State.writeMayEnd_iff hwr).mpr ⟨hmin, hmax⟩), hends]

theorem exec_storeWriteEnd_not {s : State} {w : Nat} (success : Bool)
    (h : ∀ wr, (s.advance w).store.inFlight = some wr → wr.elapsed < 200000 ∨ 600000 < wr.elapsed) :
    exec (.storeWriteEnd w success) s = .next s := by
  simp only [exec, execStoreWriteEnd]
  refine State.atInstant_of_not_occurs _ ?_
  cases hwr : (s.advance w).store.inFlight with
  | none => simp only [State.writeMayEnd, hwr]
  | some wr =>
    rw [← Bool.not_eq_true, State.writeMayEnd_iff hwr]
    rcases h wr hwr with hlow | hhigh <;> omega

/-! ## The next write (R120, R123) -/

/-- Only the store takes part in the choice of the next write. -/
theorem State.chooseWrite_eq (s : State) : s.chooseWrite = { s with store := s.chooseWrite.store } := by
  unfold State.chooseWrite
  split
  · rfl
  · split
    · rfl
    · split <;> rfl

theorem State.chooseWrite_image (s : State) : s.chooseWrite.store.image = s.store.image := by
  unfold State.chooseWrite
  split
  · rfl
  · split
    · rfl
    · split <;> rfl

/-- The store after the choice, with no commit waiting: the baseline pending starts, unless a reset waits. -/
def Store.chosen (st : Store) (resetWaiting : Bool) (baseline : StoreContents) : Store :=
  if st.baselinePending = true ∧ resetWaiting = false then
    { st with inFlight := some ⟨.baseline, baseline, 0⟩, baselinePending := false }
  else st

theorem State.chooseWrite_of_no_commit {s : State} (h : s.store.commitWaiting = false) :
    s.chooseWrite = { s with store := s.store.chosen s.resetWaiting s.baselineContents } := by
  obtain ⟨hreset, -, hbaseline, hnone⟩ := s.chooseWrite_cases
  by_cases hstarts : s.store.baselinePending = true ∧ s.resetWaiting = false
  · rw [hbaseline hstarts.2 h hstarts.1, Store.chosen, if_pos hstarts]
    rfl
  · rw [Store.chosen, if_neg hstarts]
    rcases Bool.eq_false_or_eq_true s.resetWaiting with hr | hr
    · exact hreset hr
    · exact hnone hr h (Bool.eq_false_iff.mpr fun hp => hstarts ⟨hp, hr⟩)

/-! ## The COMMIT that is answered -/

/-- The KIND of COMMIT is 0x55; a COMMIT answered before is left alone (R113, R114). -/
theorem LinkState.answerCommit_eq (st : Status) (v : Half) :
    LinkState.answerCommit st v = fun k => { k with executing := k.executing.map (fun e =>
      if e.command.kind = 0x55 ∧ e.reply = none then { e with reply := some ⟨st, be16 v⟩ } else e) } := by
  have hcommit (e : Executing) : isCommit e = true ↔ e.command.kind = 0x55 ∧ e.reply = none := by
    simp only [isCommit, Bool.and_eq_true, decide_eq_true_eq, Option.isNone_iff_eq_none]
    rfl
  funext k
  simp only [LinkState.answerCommit, hcommit]

end Sys2Proof.Machine

namespace Sys2Proof.Proofs

open Sys2Proof.Machine

/-- Settles O23: the end of a baseline write changes image and STORE-STALE, and the next write is that of
`State.chooseWrite_cases`. -/
theorem baselineWriteEndStartsTheNextWrite : Obligations.BaselineWriteEndStartsTheNextWrite := by
  refine ⟨fun s w success => exec_storeWriteEnd_not success, ?ends⟩
  intro s w success wr hw a hwr hkind hmin hmax
  obtain ⟨hreset, hcommit, hbaseline, hnone⟩ := (a.writeDone wr success).chooseWrite_cases
  refine ⟨(a.writeDone wr success).chooseWrite.store, ?run, ?image, fun hr => ?reset, fun hr hc => ?commit,
    fun hr hc hp => ?baseline, fun hr hc hp => ?nothing⟩
  case run =>
    rw [exec_storeWriteEnd_ends success hw hwr hmin hmax, State.endWrite_baseline success hkind, State.chooseWrite_eq]
    rfl
  case image => exact State.chooseWrite_image _
  case reset =>
    rw [hreset hr]
    exact ⟨rfl, rfl, rfl⟩
  case commit =>
    rw [hcommit hr hc]
    refine ⟨⟨_, rfl, rfl, rfl, rfl, fun sh hsh => ?_⟩, rfl, rfl⟩
    exact congrArg (fun shadow => Option.getD shadow a.cal.active) hsh
  case baseline =>
    rw [hbaseline hr hc hp]
    exact ⟨rfl, rfl, hc⟩
  case nothing =>
    rw [hnone hr hc hp]
    exact ⟨rfl, hc, hp⟩

/-- Settles O24, by the outcome and by whether the holder's link has had a break. -/
theorem commitWriteEndDecidesTheEdit : Obligations.CommitWriteEndDecidesTheEdit := by
  refine ⟨fun s w success wr hwr _ hout => exec_storeWriteEnd_not success fun wr' hwr' => ?early, ?ends⟩
  case early =>
    obtain rfl : wr = wr' := Option.some.inj (hwr.symm.trans hwr')
    exact hout
  case ends =>
    intro s w success broken wr h sh hw a hwr hkind hmin hmax hedit hwaiting answered next kept ended
    have hrun := exec_storeWriteEnd_ends success hw hwr hmin hmax
    have hdone (ok : Bool) : (a.writeDone wr ok).cal.edit = .committing h sh broken := hedit
    have hanswered (st : Status) (v : Half) : LinkState.answerCommit st v = answered st v := LinkState.answerCommit_eq st v
    have hnext (img : StoreImage) (c : StoreContents) :
        next img c = Store.chosen { a.store with inFlight := none, image := img } a.resetWaiting c := rfl
    refine ⟨?success, ?fault, ?brokenFault⟩
    case success =>
      rintro rfl links
      rw [hrun, State.endWrite_commit_success hkind, State.commitSuccess_of_committing _ (hdone true), hnext,
        ← hanswered, State.chooseWrite_of_no_commit]
      · cases broken <;> rfl
      · cases broken <;> exact hwaiting
    case fault =>
      rintro rfl rfl
      rw [hrun, State.endWrite_commit_fault hkind, State.commitFault_of_committing (hdone false), hnext, ← hanswered,
        State.chooseWrite_of_no_commit]
      · rfl
      · exact hwaiting
    case brokenFault =>
      rintro rfl rfl
      rw [hrun, State.endWrite_commit_fault hkind, State.commitFault_of_committing (hdone false), hnext,
        State.chooseWrite_of_no_commit]
      · rfl
      · exact hwaiting

end Sys2Proof.Proofs
end

section
/-! SUPPORT. The midpoint mark and the PPS edges that make no update (R19 to R23, R25, R27, R29, R30, R32): the missing
window, spurious edges, outliers and phase steps, by the clock state. -/

namespace Sys2Proof.Machine

/-! ## The midpoint mark -/

/-- What is ahead once time has passed up to it was ahead before. -/
theorem State.ahead_of_advance {s : State} {pos : Nat}
    (h : (s.advance (pos - s.epoch.tickPos)).epoch.ahead pos = true) : s.epoch.ahead pos = true := by
  by_cases hpos : pos - s.epoch.tickPos = 0
  · rwa [hpos, State.advance_zero] at h
  · exact (EpochTimer.ahead_iff _ _).mpr (.inl (by omega))

theorem exec_midpointMark_ahead {s : State} (hw : s.mayWait (s.epoch.len / 2 - s.epoch.tickPos))
    (h : s.epoch.ahead (s.epoch.len / 2) = true) :
    exec .midpointMark s = .next (s.advance (s.epoch.len / 2 - s.epoch.tickPos)).markIssued.closeWindow := by
  simp only [exec, execMidpointMark]
  exact State.atInstant_of_occurs _ hw h

theorem exec_midpointMark_past {s : State} (h : s.epoch.ahead (s.epoch.len / 2) = false) :
    exec .midpointMark s = .next s := by
  simp only [exec, execMidpointMark]
  exact State.atInstant_of_not_occurs _ h

/-! ## A window that closes (R20, R23) -/

section

variable {u : State}

theorem State.closeWindow_of_measured (h : u.disc.windowMeasured = true) :
    u.closeWindow = { u with disc := { u.disc with windowArrived := false, windowMeasured := false } } := by
  rw [State.closeWindow, if_pos h]

theorem State.closeWindow_of_unmeasured (h : u.disc.windowMeasured = false) :
    u.closeWindow =
      { u.missingWindow with disc := { u.missingWindow.disc with windowArrived := false, windowMeasured := false } } := by
  rw [State.closeWindow, if_neg (Bool.eq_false_iff.mp h)]

/-- A missing PPS has no effect in FREE and HOLDOVER (R25, R32). -/
theorem State.missingWindow_of_still (h : u.disc.clock = .free ∨ u.disc.clock = .holdover) : u.missingWindow = u := by
  rcases h with h | h <;> simp only [State.missingWindow, h]

theorem State.missingWindow_track_few (h : u.disc.clock = .track) (hfew : u.disc.missingRun < 2) :
    u.missingWindow = { u with disc := { u.disc with missingRun := u.disc.missingRun + 1 } } := by
  simp only [State.missingWindow, h]
  exact if_neg (Nat.not_le.mpr (Nat.succ_lt_succ hfew))

theorem State.missingWindow_track_third (h : u.disc.clock = .track) (hthird : 2 ≤ u.disc.missingRun) :
    u.missingWindow =
      State.enterClock { u with disc := { u.disc with missingRun := u.disc.missingRun + 1 } } .holdover := by
  simp only [State.missingWindow, h]
  exact if_pos (Nat.succ_le_succ hthird)

theorem State.missingWindow_acquire_few (h : u.disc.clock = .acquire) (hfew : u.disc.missingRun < 2) :
    u.missingWindow = { u with disc := { u.disc with good := 0, missingRun := u.disc.missingRun + 1 } } := by
  simp only [State.missingWindow, h]
  exact if_neg (Nat.not_le.mpr (Nat.succ_lt_succ hfew))

theorem State.missingWindow_acquire_third (h : u.disc.clock = .acquire) (hthird : 2 ≤ u.disc.missingRun) :
    u.missingWindow =
      State.enterClock { u with disc := { u.disc with good := 0, missingRun := u.disc.missingRun + 1 } }
        (if u.disc.trained then .holdover else .free) := by
  simp only [State.missingWindow, h]
  exact if_pos (Nat.succ_le_succ hthird)

end

/-! ## An edge that makes no update -/

theorem exec_ppsEdge_high {s : State} {w : Nat} (h : (s.advance w).samples.pps ≠ 2) :
    exec (.ppsEdge w) s = .next s := by
  simp only [exec, execPpsEdge]
  exact State.atInstant_of_not_occurs _ (decide_eq_false h)

/-- A second edge of a window is spurious (R22). -/
theorem exec_ppsEdge_spurious {s : State} {w : Nat} (hw : s.mayWait w) (hpps : (s.advance w).samples.pps = 2)
    (hmeasured : (s.advance w).disc.windowMeasured = true) :
    exec (.ppsEdge w) s = .next
      { s.advance w with
        samples := { (s.advance w).samples with pps := 0 }
        disc := { (s.advance w).disc with spurious := min 65535 ((s.advance w).disc.spurious + 1) } } := by
  simp only [exec, execPpsEdge]
  refine (State.atInstant_of_occurs _ hw (decide_eq_true hpps)).trans (congrArg _ ?_)
  exact if_pos hmeasured

section

variable {u : State} {p : Int}

theorem State.evaluateEdge_free (h : u.disc.clock = .free) :
    u.evaluateEdge p = (u.enterClock .acquire).phaseStep p := by
  simp only [State.evaluateEdge, h]

theorem State.evaluateEdge_holdover_far (h : u.disc.clock = .holdover) (hp : 1000 < p.natAbs) :
    u.evaluateEdge p = (u.enterClock .acquire).phaseStep p := by
  simp only [State.evaluateEdge, h]
  exact if_neg (Nat.not_le.mpr hp)

theorem State.evaluateEdge_acquire_far (h : u.disc.clock = .acquire) (hp : 50 < p.natAbs) :
    u.evaluateEdge p = State.phaseStep { u with disc := { u.disc with good := 0, missingRun := 0 } } p := by
  simp only [State.evaluateEdge, h]
  exact if_neg (Nat.not_le.mpr hp)

theorem State.evaluateEdge_track_outlier (h : u.disc.clock = .track) (hp : 1000 < p.natAbs) :
    u.evaluateEdge p = u.outlierEdge p := by
  simp only [State.evaluateEdge, h]
  exact if_neg (Nat.not_le.mpr hp)

/-- The discipline with one outlier more (R29). -/
def Discipline.withOutlier (d : Discipline) : Discipline :=
  { d with outlierRun := d.outlierRun + 1, outliers := min 65535 (d.outliers + 1) }

theorem State.outlierEdge_of_few (h : u.disc.outlierRun < 3) :
    u.outlierEdge p = { u with disc := u.disc.withOutlier } :=
  if_neg (Nat.not_le.mpr (Nat.succ_lt_succ h))

theorem State.outlierEdge_of_fourth (h : 3 ≤ u.disc.outlierRun) :
    u.outlierEdge p = (State.enterClock { u with disc := u.disc.withOutlier } .acquire).phaseStep p :=
  if_pos (Nat.succ_le_succ h)

end

end Sys2Proof.Machine

namespace Sys2Proof.Proofs

open Sys2Proof.Machine

/-- Settles O17, by the clock state and the run of missing PPS. -/
theorem midpointMarkClosesTheWindow : Obligations.MidpointMarkClosesTheWindow := by
  refine ⟨fun s hpast => exec_midpointMark_past ?past, ?mark⟩
  case past =>
    rw [← Bool.not_eq_true, EpochTimer.ahead_iff]
    rcases hpast with hpast | ⟨hat, hissued⟩
    · omega
    · rw [hissued]
      rintro (hbefore | ⟨-, hno⟩)
      · omega
      · cases hno
  case mark =>
    intro s n a hw hahead epoch opened quiet changed d
    have hlen : a.epoch.len = s.epoch.len := s.len_advance _
    have hrun : exec .midpointMark s = .next a.markIssued.closeWindow :=
      exec_midpointMark_ahead hw (State.ahead_of_advance (by rwa [hlen] at hahead))
    have hmeasured (h : d.windowMeasured = true) : a.markIssued.disc.windowMeasured = true := h
    have hmissing (h : d.windowMeasured = false) := State.closeWindow_of_unmeasured (u := a.markIssued) h
    refine ⟨fun hquiet => ?still, fun hopen hclock => ⟨fun hfew => ?trackFew, fun hthird => ?trackThird⟩,
      fun hopen hclock => ⟨fun hfew => ?acquireFew, fun hthird htrained => ?acquireTrained,
        fun hthird huntrained => ?acquireUntrained⟩⟩
    case still =>
      rw [hrun]
      rcases Bool.eq_false_or_eq_true d.windowMeasured with h | h
      · rw [State.closeWindow_of_measured (hmeasured h)]
        rfl
      · have hstill : d.clock = .free ∨ d.clock = .holdover :=
          hquiet.resolve_left fun hm => Bool.false_ne_true (h.symm.trans hm)
        rw [hmissing h, State.missingWindow_of_still (u := a.markIssued) hstill]
        rfl
    case trackFew =>
      rw [hrun, hmissing hopen, State.missingWindow_track_few (u := a.markIssued) hclock hfew]
      rfl
    case trackThird =>
      rw [hrun, hmissing hopen, State.missingWindow_track_third (u := a.markIssued) hclock hthird]
      rfl
    case acquireFew =>
      rw [hrun, hmissing hopen, State.missingWindow_acquire_few (u := a.markIssued) hclock hfew]
      rfl
    case acquireTrained =>
      rw [hrun, hmissing hopen, State.missingWindow_acquire_third (u := a.markIssued) hclock hthird,
        if_pos (show a.markIssued.disc.trained = true from htrained)]
      rfl
    case acquireUntrained =>
      rw [hrun, hmissing hopen, State.missingWindow_acquire_third (u := a.markIssued) hclock hthird,
        if_neg (show ¬ a.markIssued.disc.trained = true from Bool.eq_false_iff.mp huntrained)]
      rfl

/-- Settles O18, by the input before the edge and by the window. -/
theorem spuriousAndOutlierEdgesAreCounted : Obligations.SpuriousAndOutlierEdgesAreCounted := by
  intro s w hw a
  refine ⟨exec_ppsEdge_spurious hw, fun hhigh => exec_ppsEdge_high (Nat.ne_of_lt hhigh),
    fun p hpps hopen hp hclock hfar hfew => ?outlier⟩
  case outlier =>
    rw [exec_ppsEdge_eq_evaluateEdge hw hpps hopen hp, State.evaluateEdge_track_outlier (u := a.edgeMeasured p) hclock hfar,
      State.outlierEdge_of_few (u := a.edgeMeasured p) hfew]
    rfl

/-- Settles O20: each of the four causes ends in `State.phaseStep`, whose outcome is that of a step boundary. -/
theorem largePhaseStepsTheTimeScale : Obligations.LargePhaseStepsTheTimeScale := by
  intro s w p a hw hpps hopen hp stepped entered stays
  have hrun := exec_ppsEdge_eq_evaluateEdge hw hpps hopen hp
  have hstep (u : State) (hsn : u.epoch.sn = a.epoch.sn) : stepped u (u.phaseStep p) := by
    simp only [stepped, ← hsn]
    exact u.phaseStep_outcome p
  refine ⟨fun hcause => ⟨_, hrun.trans (congrArg _ ?free), hstep (entered a.disc) rfl⟩,
    fun hclock hfar hrunLong => ⟨_, hrun.trans (congrArg _ ?track),
      hstep (entered { a.disc with outliers := min 65535 (a.disc.outliers + 1) }) rfl⟩,
    fun hclock hfar => ⟨_, hrun.trans (congrArg _ ?acquire), hstep stays rfl⟩⟩
  case free =>
    rcases hcause with hclock | ⟨hclock, hfar⟩
    · exact State.evaluateEdge_free (u := a.edgeMeasured p) hclock
    · exact State.evaluateEdge_holdover_far (u := a.edgeMeasured p) hclock hfar
  case track =>
    rw [State.evaluateEdge_track_outlier (u := a.edgeMeasured p) hclock hfar,
      State.outlierEdge_of_fourth (u := a.edgeMeasured p) hrunLong]
    rfl
  case acquire => exact State.evaluateEdge_acquire_far (u := a.edgeMeasured p) hclock hfar

end Sys2Proof.Proofs
end

section
/-! SUPPORT. An edge of the MARK line (R177, R178, R180): the offer to each link, the value a capture gives each axis (R46,
R104), and the readings that a strobe leaves in reach of it. -/

namespace Sys2Proof.Machine

/-! ## The edge -/

theorem exec_markLineEdge_high {s : State} {w : Nat} (h : (s.advance w).samples.mark ≠ 2) :
    exec (.markLineEdge w) s = .next s := by
  simp only [exec, execMarkLineEdge]
  exact State.atInstant_of_not_occurs _ (decide_eq_false h)

theorem exec_markLineEdge_edge {s : State} {w : Nat} (hw : s.mayWait w) (h : (s.advance w).samples.mark = 2) :
    exec (.markLineEdge w) s = .next (s.advance w).lineMark := by
  simp only [exec, execMarkLineEdge]
  exact State.atInstant_of_occurs _ hw (decide_eq_true h)

section

variable {k : LinkState} (c : Capture)

theorem LinkState.offerLine_of_off (h : k.markLine = false) : k.offerLine c = k := if_neg (Bool.eq_false_iff.mp h)

theorem LinkState.offerLine_of_on (h : k.markLine = true) : k.offerLine c = k.offer c := if_pos h

end

/-! ## The values of a capture -/

section

variable {s : State} {x : Axis}

theorem State.captureAxis_of_none (h : s.captureReading x = none) :
    s.captureAxis x = ⟨none, false, false, false, false⟩ := by
  rw [State.captureAxis, h]

/-- The single-reading correction of R104. -/
theorem State.captureAxis_of_some {r : Reading} (h : s.captureReading x = some r) :
    s.captureAxis x =
      ⟨some (correctedValue (fieldValue (s.cal.active.bias.get x) r)
          ((s.cal.active.table.axisRow x).lookup s.thermTS) (s.cal.baseline.get x)),
        r.sat, r.settle, ((s.cal.active.table.axisRow x).lookup s.thermTS).tempClamp,
        ((s.cal.active.table.axisRow x).lookup s.thermTS).uncorrected⟩ := by
  rw [State.captureAxis, h]

theorem Thermometer.offered_eq (t : Thermometer) : t.offered = if t.health = .none then none else t.held := by
  by_cases h : t.health = .none
  · rw [Thermometer.offered_of_health_none h, if_pos h]
  · rw [Thermometer.offered_of_health_ne_none h, if_neg h]

end

/-! ## A strobe before a mark -/

/-- A strobe changes nothing of what a capture holds besides the readings (R46, R177). -/
theorem State.strobeWork_markContext (s : State) (k : Nat) (codeX codeY codeZ : Int) (d : Bool) :
    (s.strobeWork k codeX codeY codeZ d).markContext = s.markContext := by
  have hframe := s.strobeWork_frame k codeX codeY codeZ d
  have hepoch := (s.strobeWork_scale k codeX codeY codeZ d).1
  simp only [State.markContext, EpochTimer.position, hframe.disc, hframe.thermTS, hframe.cal, hepoch]

theorem State.advance_replaced_of_pos {n : Nat} (h : 0 < n) (s : State) : (s.advance n).replaced = none := by
  rw [State.advance, if_neg (Nat.ne_of_gt h)]

end Sys2Proof.Machine

namespace Sys2Proof.Proofs

open Sys2Proof.Machine

/-- Settles O22: the edge by the enable and the latch of each link, the values by `State.captureReading`. -/
theorem markLineEdgeFillsTheEnabledLatches : Obligations.MarkLineEdgeFillsTheEnabledLatches := by
  refine ⟨?edge, ?values, ?strobe⟩
  case edge =>
    intro s w hw a
    refine ⟨fun hhigh => exec_markLineEdge_high (Nat.ne_of_lt hhigh), fun hedge => ?_⟩
    obtain ⟨hsource, hsn, hlabel, hclock, hu, hhealth, haxes⟩ := a.capture_fields .line
    obtain ⟨hopen, hdue⟩ := a.capture_tick .line
    obtain ⟨hnone, hheld⟩ := a.capture_tsValue .line
    refine ⟨a.links.map (LinkState.offerLine (a.capture .line)), a.capture .line, exec_markLineEdge_edge hw hedge,
      hsource, hsn, hlabel, hclock, hu, hopen, hdue, hhealth, hnone, hheld, haxes, fun l => ?_⟩
    rw [PerLink.get_map]
    refine ⟨LinkState.offerLine_of_off _, fun hon hempty => ?empty, fun hon held hfull => ?full⟩
    case empty => rw [LinkState.offerLine_of_on _ hon, LinkState.offer_empty _ hempty, hsource]
    case full => rw [LinkState.offerLine_of_on _ hon, LinkState.offer_full _ hfull]
  case values =>
    intro s x row look
    have hrow : row = s.cal.active.table.axisRow x := by cases x <;> rfl
    refine ⟨fun hnone => State.captureReading_latest (fun old hold => ?never) x, fun old hold _ => ?atStrobe,
      fun old hold hchanged => State.captureReading_latest (fun old' hold' => ?changed) x, ?context,
      State.captureAxis_of_none, ?value⟩
    case never => exact absurd (hnone.symm.trans hold) (Option.some_ne_none old).symm
    case atStrobe =>
      rcases s.captureReading_mem x with h | ⟨old', hold', -, h⟩
      · exact .inl h
      · obtain rfl : old = old' := Option.some.inj (hold.symm.trans hold')
        exact .inr h
    case changed =>
      obtain rfl : old = old' := Option.some.inj (hold.symm.trans hold')
      exact hchanged
    case context => simp only [State.markContext, EpochTimer.position, Thermometer.offered_eq]
    case value =>
      intro r hr u
      rw [State.captureAxis_of_some hr, ← hrow]
      rfl
  case strobe =>
    intro s codeX codeY codeZ d k n hk hw
    refine ⟨_, exec_strobe codeX codeY codeZ d hk hw, ?replaced, fun hn => State.advance_replaced_of_pos hn _⟩
    rw [State.strobeWork_replaced, State.strobeWork_markContext, State.advance_axes]
    rfl

end Sys2Proof.Proofs
end

section
/-! SUPPORT. The byte layouts of chapter 11 (Tables 11-2, 11-4, 11-5 and 11-6): the raw sample and the length of an optional
part, and from them READ STATUS, records and captures as lists of bytes in which each field stands at its offset. -/

namespace Sys2Proof.Machine

/-! ## A field at its place -/

/-- Four bytes that are those of a value, wherever they stand. -/
theorem word_of_bytes (v : Word) :
    (v.extractLsb' 24 8 ++ v.extractLsb' 16 8) ++ (v.extractLsb' 8 8 ++ v.extractLsb' 0 8) = v :=
  u32At_be32 v []

theorem half_of_bytes (v : Half) : v.extractLsb' 8 8 ++ v.extractLsb' 0 8 = v := u16At_be16 v []

/-! ## Optional parts -/

theorem part16_length_le (v : Option Int) : (part16 v).length ≤ 2 := by
  cases v <;> simp [part16, int16, be16]

theorem part32_length_le (v : Option Int) : (part32 v).length ≤ 4 := by
  cases v <;> simp [part32, int32, be32]

theorem SeqRecord.payload_length_range (q : SeqRecord) : 26 ≤ q.payload.length ∧ q.payload.length ≤ 42 := by
  have htsValue := part16_length_le q.record.tsValue
  have htoValue := part16_length_le q.record.toValue
  have hx := part32_length_le q.record.axes.x.value
  have hy := part32_length_le q.record.axes.y.value
  have hz := part32_length_le q.record.axes.z.value
  simp [SeqRecord.payload, be32, be16, nat32, AxisRecord.bytes]
  omega

theorem Capture.bytes_length_range (c : Capture) : 18 ≤ c.bytes.length ∧ c.bytes.length ≤ 32 := by
  have htsValue := part16_length_le c.tsValue
  have hx := part32_length_le c.axes.x.value
  have hy := part32_length_le c.axes.y.value
  have hz := part32_length_le c.axes.z.value
  simp [Capture.bytes, be32, nat32]
  omega

/-! ## READ STATUS -/

/-- The raw sample as the 16 bits that READ STATUS sends (R187, Table 11-6). -/
def rawHalf (ofNoConversion : Half) : Option ConvResult → Half
  | some (.value v) => BitVec.ofInt 16 v
  | some .noConversion => ofNoConversion
  | none => 0

theorem rawValue_eq (ofNoConversion : Half) (r : Option ConvResult) :
    rawValue ofNoConversion r = be16 (rawHalf ofNoConversion r) := by
  obtain _ | _ | _ := r <;> rfl

/-- Table 11-6, with every field a list of as many bytes as it has. -/
def State.statusReport (s : State) (l : Link) : List Byte :=
  let thermometer (ch : Channel) (t : Thermometer) : List Byte :=
    [byteOf (rawKind t.raw + bitAt 2 t.held.isSome + 8 * t.health.code)]
      ++ be16 (rawHalf (Config.rawOfNoConversion ch s.epoch.sn s.epoch.position) t.raw)
      ++ int16 (optInt t.held) ++ nat16 t.faults
  s.epoch.statusBytes ++ s.disc.statusBytes ++ thermometer .TS s.thermTS ++ thermometer .TO s.thermTO
    ++ [byteOf (bitAt 0 s.cal.oscVoid + bitAt 1 s.cal.oscClamp)]
    ++ s.axes.x.statusBytes ++ s.axes.y.statusBytes ++ s.axes.z.statusBytes
    ++ s.cal.statusBytes ++ s.ring.statusBytes ++ (s.links.get l).statusBytes

theorem State.statusBytes_eq_report (s : State) (l : Link) : s.statusBytes l = s.statusReport l := by
  simp only [State.statusBytes, Thermometer.statusBytes, rawValue_eq]
  rfl

/-- The command in the executing slot is no part of the status. -/
theorem State.enter_statusBytes (a : State) (l : Link) (c : Command) :
    (a.onLink l (LinkState.enter c)).statusBytes l = a.statusBytes l := by
  have hlink : ((a.onLink l (LinkState.enter c)).links.get l).statusBytes = (a.links.get l).statusBytes := by
    rw [State.onLink_get_same]
    rfl
  unfold State.statusBytes
  rw [hlink]
  rfl

theorem exec_readStatus_taken {s : State} {w : Nat} {l : Link} (tag : Byte) (hw : s.takesAt w l) :
    exec (.readStatus w l tag []) s = .next
      (State.holding { s.advance w with earlier := ⟨[], [], []⟩, replaced := none } l ⟨0x20, tag, []⟩ .ok
        ((s.advance w).statusReport l)) := by
  rw [exec_arrival_kind (c := ⟨0x20, tag, []⟩) (k := .readStatus) rfl hw rfl rfl]
  refine congrArg _ (Eq.trans ?_ (State.enter_answer { s.advance w with earlier := ⟨[], [], []⟩, replaced := none } l _ .ok _))
  rw [← State.statusBytes_eq_report, ← State.enter_statusBytes _ l ⟨0x20, tag, []⟩]
  rfl

end Sys2Proof.Machine

namespace Sys2Proof.Proofs

open Sys2Proof.Machine

/-- Settles O38: the report, written out, is a list of 103 bytes, and each field stands at its offset. -/
theorem readStatusReportsTheState : Obligations.ReadStatusReportsTheState := by
  intro s w l tag hw a k bit kind thermometer
  obtain ⟨p, hp⟩ : ∃ p, p = a.statusReport l := ⟨_, rfl⟩
  refine ⟨p, hp ▸ exec_readStatus_taken tag hw, ?fields⟩
  simp only [State.statusReport, EpochTimer.statusBytes, Discipline.statusBytes, AxisChannel.statusBytes,
    CalUnit.statusBytes, Ring.statusBytes, LinkState.statusBytes, be32, be16, nat32, nat16, int32, int16,
    List.cons_append, List.nil_append] at hp
  subst hp
  have hraw (t : Thermometer) (n : Half) :
      (t.raw = none → rawHalf n t.raw = 0) ∧ (∀ v, t.raw = some (.value v) → rawHalf n t.raw = BitVec.ofInt 16 v) :=
    ⟨fun h => by rw [h]; rfl, fun v h => by rw [h]; rfl⟩
  have hholder {e : Edit} (he : a.cal.edit = e) : holderCode a.cal.edit.holder = holderCode e.holder := by rw [he]
  refine ⟨rfl, word_of_bytes _, fun hin => (word_of_bytes _).trans ?inside, fun hdue => (word_of_bytes _).trans ?due,
    rfl, word_of_bytes _, half_of_bytes _, word_of_bytes _, rfl, rfl, word_of_bytes _, word_of_bytes _, rfl, rfl, rfl,
    word_of_bytes _, half_of_bytes _, half_of_bytes _,
    ⟨rfl, fun h => (half_of_bytes _).trans ((hraw _ _).1 h), fun v h => (half_of_bytes _).trans ((hraw _ _).2 v h),
      half_of_bytes _, half_of_bytes _⟩,
    ⟨rfl, fun h => (half_of_bytes _).trans ((hraw _ _).1 h), fun v h => (half_of_bytes _).trans ((hraw _ _).2 v h),
      half_of_bytes _, half_of_bytes _⟩,
    rfl, rfl, rfl, rfl, rfl, rfl, rfl, rfl, rfl, rfl, half_of_bytes _, rfl, fun he => hholder he, fun h sh idle he => hholder he,
    fun h sh b he => hholder he,
    half_of_bytes _, word_of_bytes _, word_of_bytes _, fun hempty => (word_of_bytes _).trans ?empty,
    fun q rest hrecords => (word_of_bytes _).trans ?newest,
    word_of_bytes _, rfl, half_of_bytes _, half_of_bytes _, half_of_bytes _, half_of_bytes _, half_of_bytes _,
    half_of_bytes _, half_of_bytes _, rfl, rfl⟩
  case inside => rw [EpochTimer.position, Nat.min_eq_left (Nat.le_sub_one_of_lt hin)]
  case due => rw [EpochTimer.position, Nat.min_eq_right (by omega)]
  case empty => rw [Ring.newest_of_empty hempty]; rfl
  case newest => rw [Ring.newest_of_append hrecords]; rfl

/-- Settles O39: the codes by their tables; each fixed part, written out, is a list of bytes before the optional parts. -/
theorem recordsAndCapturesFollowTheirTables : Obligations.RecordsAndCapturesFollowTheirTables := by
  refine ⟨⟨rfl, fun _ _ _ _ _ _ _ _ _ => rfl, rfl, rfl, rfl, rfl, rfl, rfl, fun _ => rfl, rfl, rfl, rfl, rfl,
    fun _ _ _ _ => rfl⟩, ?layouts⟩
  intro bit two four
  have htwo (v : Option Int) : two v = part16 v := by cases v <;> rfl
  have hfour (v : Option Int) : four v = part32 v := by cases v <;> rfl
  refine ⟨fun q => ?record, fun c => ?capture⟩
  case record =>
    intro r p axis
    obtain ⟨hmin, hmax⟩ : 26 ≤ p.length ∧ p.length ≤ 42 := q.payload_length_range
    have hp : p = q.payload := rfl
    simp only [SeqRecord.payload, be32, be16, nat32, AxisRecord.bytes, List.cons_append, List.nil_append] at hp
    clear_value p
    subst hp
    simp only [htwo, hfour]
    exact ⟨word_of_bytes _, word_of_bytes _, rfl, word_of_bytes _, half_of_bytes _, rfl, rfl, ⟨rfl, rfl, rfl⟩,
      ⟨rfl, rfl, rfl⟩, ⟨rfl, rfl, rfl⟩, rfl, hmin, hmax⟩
  case capture =>
    intro p axis
    obtain ⟨hmin, hmax⟩ : 18 ≤ p.length ∧ p.length ≤ 32 := c.bytes_length_range
    have hp : p = c.bytes := rfl
    simp only [Capture.bytes, be32, nat32, List.cons_append, List.nil_append] at hp
    clear_value p
    subst hp
    simp only [htwo, hfour]
    exact ⟨rfl, word_of_bytes _, word_of_bytes _, rfl, word_of_bytes _, rfl, rfl, rfl, rfl, rfl, hmin, hmax⟩

end Sys2Proof.Proofs
end

section
/-! SUPPORT. The bound of a field value (R90): the correction of a mean within the ranges of bias, reading, terms and
baseline, the readings that a completing slot holds, and the latches under every event. -/

namespace Sys2Proof.Machine

/-! ## Rounding within a bound -/

/-- A quotient less than half a unit above n rounds to n or below. -/
theorem roundDiv_le {a b n : Int} (hb : 0 < b) (h : 2 * a < 2 * (n * b) + b) : roundDiv a b ≤ n := by
  obtain ⟨hover, -⟩ := Proofs.roundingIsToNearestTiesAway a b hb
  have hmul : b * roundDiv a b < b * (n + 1) := by
    have hnext : b * (n + 1) = n * b + b := by rw [Int.mul_add, Int.mul_one, Int.mul_comm]
    omega
  exact Int.lt_add_one_iff.mp (Int.lt_of_mul_lt_mul_left hmul (Int.le_of_lt hb))

/-- A quotient less than half a unit outside ±n rounds to a value within ±n. -/
theorem roundDiv_within {a b n : Int} (hb : 0 < b) (hlow : -(2 * (n * b) + b) < 2 * a) (hhigh : 2 * a < 2 * (n * b) + b) :
    -n ≤ roundDiv a b ∧ roundDiv a b ≤ n := by
  have hneg := roundDiv_le (a := -a) (n := n) hb (by omega)
  rw [roundDiv_neg hb] at hneg
  exact ⟨by omega, roundDiv_le hb hhigh⟩

/-- The sum of values within ±n lies within n for each of them. -/
theorem sum_within {l : List Int} {n : Int} (h : ∀ v ∈ l, -n ≤ v ∧ v ≤ n) :
    -(n * l.length) ≤ l.sum ∧ l.sum ≤ n * l.length := by
  induction l with
  | nil => exact ⟨by simp, by simp⟩
  | cons v rest ih =>
    obtain ⟨hlow, hhigh⟩ := ih (fun w hw => h w (List.mem_cons_of_mem v hw))
    obtain ⟨hv0, hv⟩ := h v List.mem_cons_self
    have hlen : n * ((v :: rest).length : Int) = n * rest.length + n := by
      rw [List.length_cons, Int.natCast_add, Int.mul_add, Int.natCast_one, Int.mul_one]
    rw [List.sum_cons, hlen]
    omega

/-- The rounded mean of values within ±n lies within ±n. -/
theorem roundDiv_sum_within {l : List Int} {n : Int} (hne : l ≠ []) (h : ∀ v ∈ l, -n ≤ v ∧ v ≤ n) :
    -n ≤ roundDiv l.sum l.length ∧ roundDiv l.sum l.length ≤ n := by
  have hpos : 0 < (l.length : Int) := by
    have := List.length_pos_iff.mpr hne
    omega
  obtain ⟨hlow, hhigh⟩ := sum_within h
  exact roundDiv_within hpos (by omega) (by omega)

/-! ## The bound of a corrected value (R87 to R90) -/

/-- R90. -/
def fieldLimit : Int := 112392493

/-- B + n·2,000,000 + r within the ranges of its three parts (R87). -/
theorem fieldValue_range {bias : Int} {r : Reading} (hbias : -80000000 ≤ bias ∧ bias ≤ 80000000) (hr : r.Sound) :
    -100388607 ≤ fieldValue bias r ∧ fieldValue bias r ≤ 100388607 := by
  obtain ⟨hlow, hhigh, hindex0, hindex, -⟩ := hr
  unfold fieldValue offsetUnit
  omega

/-- The correction of R89 and R90 adds at most 1,003,886 by the gain, 1,000,000 by O and 10,000,000 by the baseline. -/
theorem correctedValue_range {m baseline : Int} {look : LookupResult} (hm : -100388607 ≤ m ∧ m ≤ 100388607)
    (hlook : -1000000 ≤ look.g ∧ look.g ≤ 1000000 ∧ -1000000 ≤ look.o ∧ look.o ≤ 1000000)
    (hbase : -10000000 ≤ baseline ∧ baseline ≤ 10000000) :
    -fieldLimit ≤ correctedValue m look baseline ∧ correctedValue m look baseline ≤ fieldLimit := by
  obtain ⟨hg0, hg, ho0, ho⟩ := hlook
  have hgain : (m * look.g).natAbs ≤ 100388607 * 1000000 := by
    rw [Int.natAbs_mul]
    exact Nat.mul_le_mul (by omega) (by omega)
  obtain ⟨hround0, hround⟩ := roundDiv_within (a := m * look.g) (b := gainUnit) (n := 1003886) (by decide)
    (by unfold gainUnit; omega) (by unfold gainUnit; omega)
  unfold correctedValue fieldLimit
  omega

section

variable {s : State} (h : s.CalSound)

include h

theorem State.CalSound.bias_range (x : Axis) : -80000000 ≤ s.cal.active.bias.get x ∧ s.cal.active.bias.get x ≤ 80000000 := by
  obtain ⟨-, -, -, -, hbias, -⟩ := (CalSet.inRange_iff _).mp h.activeInRange
  exact PerAxis.allWithin_iff.mp hbias x

/-- What a lookup yields for an axis lies within the range of the terms (R71). -/
theorem State.CalSound.lookup_range (x : Axis) (t : Thermometer) :
    let look := (s.cal.active.table.axisRow x).lookup t;
    -1000000 ≤ look.g ∧ look.g ≤ 1000000 ∧ -1000000 ≤ look.o ∧ look.o ≤ 1000000 := by
  obtain ⟨hx, hy, hz, -⟩ := (CalSet.inRange_iff _).mp h.activeInRange
  have hrow : (s.cal.active.table.axisRow x).termsInRange = true := by
    cases x
    · exact hx
    · exact hy
    · exact hz
  exact Row.lookup_range (by decide) ((Row.termsInRange_iff _).mp hrow) t

/-- The value formed from a mean within the range of R87 keeps the bound. -/
theorem State.CalSound.correctedValue_range {m : Int} (hm : -100388607 ≤ m ∧ m ≤ 100388607) (x : Axis) (t : Thermometer) :
    let v := correctedValue m ((s.cal.active.table.axisRow x).lookup t) (s.cal.baseline.get x);
    -fieldLimit ≤ v ∧ v ≤ fieldLimit :=
  Machine.correctedValue_range hm (h.lookup_range x t) (PerAxis.allWithin_iff.mp h.baselineInRange x)

end

/-! ## Captures and records within the bound -/

/-- R90 of a mark capture. -/
def Capture.Bounded (c : Capture) : Prop := ∀ x v, (c.axes.get x).value = some v → -fieldLimit ≤ v ∧ v ≤ fieldLimit

/-- R90 of a second record. -/
def Record.Bounded (r : Record) : Prop := ∀ x v, (r.axes.get x).value = some v → -fieldLimit ≤ v ∧ v ≤ fieldLimit

theorem State.captureAxis_bounded {s : State} (hc : s.CalSound) (hf : s.FieldSound) {x : Axis} {v : Int}
    (hv : (s.captureAxis x).value = some v) : -fieldLimit ≤ v ∧ v ≤ fieldLimit := by
  cases hr : s.captureReading x with
  | none =>
    rw [State.captureAxis_of_none hr] at hv
    cases hv
  | some r =>
    rw [State.captureAxis_of_some hr] at hv
    cases hv
    exact hc.correctedValue_range (fieldValue_range (hc.bias_range x) (hf.captureReading hr)) x s.thermTS

theorem State.capture_bounded {s : State} (hc : s.CalSound) (hf : s.FieldSound) (source : MarkSource) :
    (s.capture source).Bounded := by
  intro x v hv
  have hv : (s.captureAxis x).value = some v := by cases x <;> exact hv
  exact State.captureAxis_bounded hc hf hv

/-- All readings of a slot lie within the ranges of Table 3-2. -/
def Slot.ReadingsSound (sl : Slot) : Prop := ∀ x, ∀ r ∈ sl.readings.get x, r.Sound

theorem Slot.ReadingsSound.enlist {sl : Slot} (h : sl.ReadingsSound) {r : Reading} (hr : r.Sound) :
    (sl.enlist r).ReadingsSound := by
  unfold Slot.enlist
  split
  · intro x q hq
    by_cases hx : x = r.axis
    · subst hx
      dsimp only at hq
      rw [PerAxis.get_modify_same] at hq
      rcases List.mem_append.mp hq with hq | hq
      · exact h _ q hq
      · exact List.mem_singleton.mp hq ▸ hr
    · dsimp only at hq
      rw [PerAxis.get_modify_other _ hx] at hq
      exact h x q hq
  · exact h

/-- At strobe 4 the slot holds readings within Table 3-2 alone. -/
theorem State.FieldSound.strobed_four {s : State} (h : s.FieldSound) (codeX codeY codeZ : Int) (d : Bool) {sl : Slot}
    (hsl : (s.strobed 4 codeX codeY codeZ d).asm.slot = some sl) : sl.ReadingsSound := by
  have hreading : ∀ a, (s.readingAt 4 codeX codeY codeZ d a).Sound := fun a =>
    (s.channelAt_sound h a 4).reading a _ (by decide) _ d
  rw [State.strobed_slot, if_neg (by decide)] at hsl
  obtain ⟨old, hold, rfl⟩ := Option.map_eq_some_iff.mp hsl
  have hsound : old.ReadingsSound := fun x r hr => by
    obtain ⟨-, hlist⟩ := h.lists x
    rw [hold] at hlist
    exact hlist r hr
  exact ((hsound.enlist (hreading .X)).enlist (hreading .Y)).enlist (hreading .Z)

/-- A record keeps the bound, formed from such a slot under a calibration within its ranges. -/
theorem State.recordOf_bounded {u : State} (hc : u.CalSound) {sl : Slot} (hsl : sl.ReadingsSound) :
    (u.recordOf sl).Bounded := by
  intro x v hv
  have hv : (u.axisRecord sl x).value = some v := by cases x <;> exact hv
  by_cases hvalid : (sl.readings.get x).filter Reading.isValid = []
  · rw [u.axisRecord_value_of_none_valid sl x hvalid] at hv
    cases hv
  · rw [u.axisRecord_value_of_valid sl x hvalid] at hv
    cases hv
    have hvalues : ∀ w ∈ ((sl.readings.get x).filter Reading.isValid).map (fieldValue (u.cal.active.bias.get x)),
        -100388607 ≤ w ∧ w ≤ 100388607 := by
      intro w hw
      obtain ⟨r, hr, rfl⟩ := List.mem_map.mp hw
      exact fieldValue_range (hc.bias_range x) (hsl x r (List.mem_filter.mp hr).1)
    have hmean := roundDiv_sum_within (by simpa only [ne_eq, List.map_eq_nil_iff] using hvalid) hvalues
    rw [List.length_map] at hmean
    exact hc.correctedValue_range hmean x u.thermTS

/-! ## The append -/

/-- After an append the ring holds the record appended, and of the others none that it did not hold before. -/
theorem State.appendRecord_records (s : State) (record : Record) :
    ∀ q ∈ (s.appendRecord record).ring.records, q ∈ s.ring.records ∨ q.record = record := by
  have placed : ∀ u : State, (∀ q ∈ u.ring.records, q ∈ s.ring.records) →
      ∀ q ∈ (u.ring.place record).records, q ∈ s.ring.records ∨ q.record = record := by
    intro u hu q hq
    rcases List.mem_append.mp hq with hq | hq
    · exact .inl (hu q hq)
    · exact .inr (by rw [List.mem_singleton.mp hq])
  by_cases hroom : s.ring.count < ringCapacity
  · rw [State.appendRecord_of_room record hroom]
    exact placed s (fun _ hq => hq)
  · rw [State.appendRecord_of_full record (Nat.not_lt.mp hroom)]
    refine placed s.removeOldest ?_
    cases hr : s.ring.records with
    | nil => simp only [State.removeOldest, hr, List.not_mem_nil, false_implies, implies_true]
    | cons q rest =>
      rw [State.removeOldest_of_cons hr]
      exact fun _ hq => List.mem_cons_of_mem q hq

theorem LinkState.passRemoved_latch (removed : Word) (k : LinkState) : (k.passRemoved removed).latch = k.latch := by
  unfold LinkState.passRemoved
  split <;> rfl

theorem State.appendRecord_latch (s : State) (record : Record) (l : Link) :
    ((s.appendRecord record).links.get l).latch = (s.links.get l).latch := by
  by_cases hroom : s.ring.count < ringCapacity
  · rw [State.appendRecord_of_room record hroom]
  · rw [State.appendRecord_of_full record (Nat.not_lt.mp hroom)]
    cases hr : s.ring.records with
    | nil => simp only [State.removeOldest, hr]
    | cons q rest =>
      rw [State.removeOldest_of_cons hr]
      dsimp only
      rw [PerLink.get_map, LinkState.passRemoved_latch]

/-- What a strobe does to the ring: it holds no record it did not hold before, or one more, within the bound. -/
theorem State.strobeWork_records {s : State} (hc : s.CalSound) (hf : s.FieldSound) (k : Nat) (codeX codeY codeZ : Int)
    (d : Bool) :
    ∀ q ∈ (s.strobeWork k codeX codeY codeZ d).ring.records, q ∈ s.ring.records ∨ q.record.Bounded := by
  intro q hq
  rcases s.strobeWork_append k codeX codeY codeZ d with hw | ⟨sl, asm, hsl, rfl, -, -, hw⟩ <;> rw [hw] at hq
  · exact .inl (by rwa [State.strobed_ring] at hq)
  · have hframe := s.strobed_frame 4 codeX codeY codeZ d
    have hbounded := State.recordOf_bounded (hc.frame ⟨hframe.cal, hframe.store, hframe.resetWaiting⟩)
      (hf.strobed_four codeX codeY codeZ d hsl)
    rcases State.appendRecord_records _ _ q hq with hold | hnew
    · exact .inl (by rwa [State.strobed_ring] at hold)
    · exact .inr (hnew ▸ hbounded)

theorem State.strobeWork_latch (s : State) (k : Nat) (codeX codeY codeZ : Int) (d : Bool) (l : Link) :
    ((s.strobeWork k codeX codeY codeZ d).links.get l).latch = (s.links.get l).latch := by
  have hstrobed : ((s.strobed k codeX codeY codeZ d).links.get l).latch = (s.links.get l).latch := by
    rw [State.strobed_links]
  rcases s.strobeWork_append k codeX codeY codeZ d with hw | ⟨sl, asm, -, -, -, -, hw⟩ <;> rw [hw]
  · exact hstrobed
  · rw [State.appendRecord_latch]
    exact hstrobed

end Sys2Proof.Machine
end

section
/-! SUPPORT. The captures in the latches (R180, R182) under every event: MARK and the MARK line place one, READ MARK and a
reset remove it, and no other event touches a latch. -/

namespace Sys2Proof.Machine

/-! ## Latches -/

/-- Every capture in a latch has the property. -/
def State.Latches (p : Capture → Prop) (s : State) : Prop := ∀ l c, (s.links.get l).latch = some c → p c

namespace State.Latches

variable {p : Capture → Prop} {s : State}

/-- An event of one link that leaves in its latch what stood there, or a capture with the property. -/
theorem onLinkOr (l : Link) {f : LinkState → LinkState} (hf : ∀ k c, (f k).latch = some c → k.latch = some c ∨ p c)
    (h : s.Latches p) : (s.onLink l f).Latches p :=
  State.onLink_forall (fun k => ∀ c, k.latch = some c → p c) s l f h (fun c hc => (hf _ c hc).elim (h l c) id)

theorem onLink (l : Link) {f : LinkState → LinkState} (hf : ∀ k, (f k).latch = k.latch) (h : s.Latches p) :
    (s.onLink l f).Latches p := onLinkOr l (fun k _ hc => .inl (hf k ▸ hc)) h

/-- An event that leaves each latch alone. -/
theorem ofSame {u : State} (hu : ∀ l, (u.links.get l).latch = (s.links.get l).latch) (h : s.Latches p) : u.Latches p :=
  fun l c hc => h l c (hu l ▸ hc)

theorem map {u : State} {f : LinkState → LinkState} (hu : u.links = s.links.map f) (hf : ∀ k, (f k).latch = k.latch)
    (h : s.Latches p) : u.Latches p := ofSame (fun l => by rw [hu, PerLink.get_map, hf]) h

theorem ofLinks {u : State} (hu : u.links = s.links) (h : s.Latches p) : u.Latches p := ofSame (fun l => by rw [hu]) h

theorem answer (l : Link) (st : Status) (b : List Byte) (h : s.Latches p) : (s.answer l st b).Latches p :=
  onLink (f := LinkState.answer st b) l (fun _ => rfl) h

end State.Latches

theorem LinkState.endTest_latch (next : Word) (k : LinkState) : (k.endTest next).latch = k.latch := by
  unfold LinkState.endTest
  split
  · rfl
  · split
    · rfl
    · split <;> rfl

theorem LinkState.wait_latch (c : Command) (k : LinkState) : (k.wait c).latch = k.latch := by
  unfold LinkState.wait
  split <;> rfl

theorem LinkState.deliver_latch (n : Word) (k : LinkState) : (k.deliver n).latch = k.latch := by
  unfold LinkState.deliver
  split <;> rfl

theorem LinkState.beginReply_latch (k : LinkState) : k.beginReply.latch = k.latch := by
  unfold LinkState.beginReply
  split
  · rfl
  · split <;> rfl

theorem LinkState.endTransferFrame_latch (next : Word) (k : LinkState) : (k.endTransferFrame next).latch = k.latch := by
  unfold LinkState.endTransferFrame
  split
  · rw [LinkState.endTest_latch]
    exact LinkState.deliver_latch _ k.lineIdle
  · exact LinkState.deliver_latch _ k.lineIdle
  · rfl
  · rfl
  · rfl

theorem LinkState.endStreamFrame_latch (k : LinkState) : k.endStreamFrame.latch = k.latch := by
  unfold LinkState.endStreamFrame
  split
  · exact LinkState.deliver_latch _ k.lineIdle
  · rfl
  · rfl
  · rfl

/-- A latch holds after an offer what it held, or the capture offered (R180). -/
theorem LinkState.offer_latch {cap c : Capture} {k : LinkState} (h : (k.offer cap).latch = some c) :
    k.latch = some c ∨ c = cap := by
  cases hk : k.latch with
  | none =>
    rw [LinkState.offer_empty cap hk] at h
    exact .inr (Option.some.inj h).symm
  | some held =>
    rw [LinkState.offer_full cap hk] at h
    exact .inl (hk ▸ h)

/-! ## Station commands -/

section

variable {p : Capture → Prop} {s : State} (h : s.Latches p) (l : Link)

include h

theorem State.Latches.withEdit (e : Edit) : (s.setEdit e).Latches p := .ofLinks rfl h

theorem State.Latches.editWrite (write : CalSet → Option CalSet) : (s.editWrite l write).Latches p := by
  unfold State.editWrite
  split
  · exact .answer l _ _ h
  · split
    · split <;> exact .answer l _ _ (h.withEdit _)
    · exact .answer l _ _ h
  · split <;> exact .answer l _ _ h

theorem State.Latches.answerTable (b : List Byte) (c : CalSet) : (s.answerTable l b c).Latches p := by
  unfold State.answerTable
  split <;> exact .answer l _ _ h

theorem State.Latches.takeSeek (b : List Byte) : (s.takeSeek l b).Latches p := by
  have place : ∀ c st, ((s.setCursor l c).answerSeek l st).Latches p := fun c _ =>
    .answer l _ _ (.onLink l (fun _ => rfl) h)
  unfold State.takeSeek State.seekNewest State.seekNumber
  split
  · exact place _ _
  · split <;> exact place _ _
  · exact place _ _
  · split
    · exact place _ _
    · exact place _ _
    · exact place _ _
    · exact .answer l _ _ h
  · exact .answer l _ _ h

/-- MARK places its own capture at most (R179). -/
theorem State.Latches.takeMark (hmark : p (s.capture .command)) : (s.takeMark l).Latches p := by
  have hoffered : (s.markTaken.onLink l (LinkState.offer (s.capture .command))).Latches p :=
    .onLinkOr l (fun _ _ hc => (LinkState.offer_latch hc).imp_right (by rintro rfl; exact hmark)) (.ofLinks rfl h)
  exact .answer l _ _ hoffered

/-- A latch after a command holds what it held, or the capture of MARK, or nothing (R179, R182). -/
theorem State.Latches.takeKind (hmark : p (s.capture .command)) (k : Kind) (tag : Byte) (b : List Byte) :
    (s.takeKind l k tag b).Latches p := by
  have answer := fun st b => State.Latches.answer l st b h
  cases k
  case seek => exact h.takeSeek l b
  case readRecords =>
    simp only [State.takeKind, State.takeReadRecords]
    split
    · exact answer _ _
    · exact h.onLink l (fun k => LinkState.endTest_latch _ _)
  case stream =>
    simp only [State.takeKind, State.takeStream]
    split
    · exact .answer l _ _ (.onLink l (fun _ => rfl) h)
    · exact .answer l _ _ (.onLink l (fun _ => rfl) h)
    · exact answer _ _
  case readStatus => exact .answer l _ _ (.ofLinks rfl h)
  case readNotice =>
    simp only [State.takeKind, State.takeReadNotice]
    split
    · exact .answer l _ _ (.ofLinks rfl h)
    · exact .answer l _ _ (.onLink l (fun _ => rfl) (.ofLinks rfl h))
  case setNoticeMask =>
    exact .answer l _ _ (.onLink l (fun _ => rfl) (.ofLinks rfl h))
  case mark => exact h.takeMark l hmark
  case readMark =>
    simp only [State.takeKind, State.takeReadMark]
    split
    · exact answer _ _
    · exact .answer l _ _ (.onLinkOr l (fun _ _ hc => by cases hc) h)
  case setMarkLine =>
    simp only [State.takeKind, State.takeSetMarkLine]
    split
    · exact .answer l _ _ (.onLink l (fun _ => rfl) h)
    · exact .answer l _ _ (.onLink l (fun _ => rfl) h)
    · exact answer _ _
  case labelNextSecond =>
    simp only [State.takeKind, State.takeLabel]
    split
    · exact answer _ _
    · split
      · exact .answer l _ _ (.ofLinks rfl h)
      · split
        · exact answer _ _
        · exact .answer l _ _ (.map rfl (fun _ => rfl) h)
  case setOffset =>
    have change : ∀ a t st, (s.changeAxis l a t st).Latches p := fun _ _ _ => .answer l _ _ (.ofLinks rfl h)
    simp only [State.takeKind, State.takeSetOffset]
    split
    · exact change _ _ _
    · split <;> exact change _ _ _
    · exact answer _ _
    · exact answer _ _
  case openEdit =>
    simp only [State.takeKind, State.takeOpenEdit]
    split
    · split
      · exact answer _ _
      · exact .answer l _ _ (.ofLinks rfl h)
    · split
      · exact .answer l _ _ (.ofLinks rfl h)
      · exact answer _ _
    · exact answer _ _
  case writeKnot => exact h.editWrite l _
  case writeBand => exact h.editWrite l _
  case writeBias => exact h.editWrite l _
  case writeHoldoverRate => exact h.editWrite l _
  case commit =>
    simp only [State.takeKind, State.takeCommit]
    split
    · exact answer _ _
    · split
      · exact h.ofLinks (State.requestWrite_links _ _)
      · exact answer _ _
    · exact answer _ _
  case abandon =>
    simp only [State.takeKind, State.takeAbandon]
    split
    · exact answer _ _
    · split
      · exact .answer l _ _ (.ofLinks rfl h)
      · exact answer _ _
    · exact answer _ _
  case lockCalibration =>
    simp only [State.takeKind, State.takeLock]
    split
    · exact .answer l _ _ (.ofLinks rfl h)
    · exact answer _ _
    · exact answer _ _
  case readTable =>
    simp only [State.takeKind, State.takeReadTable]
    split
    · exact h.answerTable l _ _
    · unfold State.readShadow
      split
      · exact answer _ _
      · split
        · exact (h.withEdit _).answerTable l _ _
        · exact answer _ _
      · exact answer _ _
    · exact answer _ _
  case setBaseline =>
    have raised : ∀ (u : State) n, u.Latches p → (u.raiseOthers l n).Latches p := fun u n hu => by
      cases l <;> exact .onLink _ (fun _ => rfl) (.onLink _ (fun _ => rfl) hu)
    simp only [State.takeKind, State.takeSetBaseline]
    split
    · exact .answer l _ _ (.ofLinks (State.requestWrite_links _ _) (raised _ _ (.ofLinks rfl h)))
    · exact answer _ _

theorem State.Latches.begin (hmark : p (s.capture .command)) (c : Command) : (s.begin l c).Latches p := by
  have entered : (s.onLink l (LinkState.enter c)).Latches p := h.onLink l (fun _ => rfl)
  unfold State.begin State.execute
  split
  · exact .answer l _ _ entered
  · split
    · exact entered.takeKind l hmark _ _ _
    · exact .answer l _ _ entered

theorem State.Latches.handOver (hmark : p (s.capture .command)) (c : Command) : (s.handOver l c).Latches p := by
  unfold State.handOver
  split
  · exact h.begin l hmark c
  · exact h.onLink l (fun k => LinkState.wait_latch c k)

theorem State.Latches.acceptFrame (hmark : p (s.capture .command)) (c : Command) : (s.acceptFrame l c).Latches p := by
  unfold State.acceptFrame
  have hunting : (s.onLink l (fun k => k.setRx k.rx.toHunt)).Latches p := h.onLink l (fun _ => rfl)
  exact hunting.handOver l hmark c

/-- The end of a reply takes up the command that waited (R154). -/
theorem State.Latches.endReply (hmark : p (s.capture .command)) : (s.endReply l).Latches p := by
  have idle : (s.onLink l LinkState.lineIdle).Latches p := h.onLink l (fun _ => rfl)
  unfold State.endReply
  split
  · unfold State.leave
    split
    · exact idle.onLink l (fun _ => rfl)
    · have freed : ((s.onLink l LinkState.lineIdle).onLink l (fun k => { k with waiting := none })).Latches p :=
        idle.onLink l (fun _ => rfl)
      exact freed.begin l hmark _
  · exact idle
  · exact h
  · exact h
  · exact h

/-- The end of a store write answers a COMMIT and raises CALIB at most (R113, R114). -/
theorem State.Latches.endWrite (w : StoreWrite) (success : Bool) : (s.endWrite w success).Latches p := by
  have succeed : ∀ (u : State) v, u.Latches p → (u.commitSuccess v).Latches p := by
    intro u v hu
    unfold State.commitSuccess
    split
    · exact hu
    · exact hu
    · dsimp only
      split
      · exact hu.map rfl (fun _ => rfl)
      · exact .onLink _ (fun _ => rfl) (.map rfl (fun _ => rfl) hu)
  have fail : ∀ u : State, u.Latches p → u.commitFault.Latches p := by
    intro u hu
    unfold State.commitFault
    split
    · exact hu
    · exact hu
    · split
      · exact hu
      · exact .onLink _ (fun _ => rfl) (.ofLinks rfl hu)
  unfold State.endWrite
  dsimp only
  refine .ofLinks (State.chooseWrite_links _) ?_
  cases w.kind <;> cases success
  · exact fail _ (.ofLinks rfl h)
  · exact succeed _ _ (.ofLinks rfl h)
  · exact h.ofLinks rfl
  · exact h.ofLinks rfl

end

/-! ## The invariant -/

/-- R90 with the invariants of calibration and field that it rests on. -/
structure State.ValuesKept (s : State) : Prop where
  bounded : s.ValuesBounded
  cal : s.CalKept
  field : s.FieldSound

section

variable {u s : State} (h : s.ValuesKept)

include h

theorem State.ValuesKept.latches : s.Latches Capture.Bounded := h.bounded.latches

theorem State.ValuesKept.capture (hp : s.powered = true) (source : MarkSource) : (s.capture source).Bounded :=
  State.capture_bounded (h.cal hp) h.field source

/-- An event that leaves the ring alone, and each latch as above. -/
theorem State.ValuesKept.sameRing (hring : u.ring = s.ring) (hlatches : u.Latches Capture.Bounded) : u.ValuesBounded :=
  ⟨by rw [hring]; exact h.bounded.records, hlatches⟩

/-- An event of one link alone that leaves its latch alone. -/
theorem State.ValuesKept.onLink (l : Link) {f : LinkState → LinkState} (hf : ∀ k, (f k).latch = k.latch) :
    (s.onLink l f).ValuesBounded := h.sameRing rfl (.onLink l hf h.latches)

theorem State.ValuesKept.scale (hf : u.ScaleFrame s) : u.ValuesBounded := by
  refine h.sameRing hf.ring (h.latches.ofSame fun l => ?_)
  obtain ⟨clock, step, hl⟩ := hf.links l
  rw [hl]

theorem State.ValuesKept.strobeWork (hp : s.powered = true) (k : Nat) (codeX codeY codeZ : Int) (d : Bool) :
    (s.strobeWork k codeX codeY codeZ d).ValuesBounded where
  records q hq := (State.strobeWork_records (h.cal hp) h.field k codeX codeY codeZ d q hq).elim (h.bounded.records q) id
  latches := h.latches.ofSame (s.strobeWork_latch k codeX codeY codeZ d)

theorem State.ValuesKept.lineMark (hp : s.powered = true) : s.lineMark.ValuesBounded := by
  refine h.sameRing rfl fun l c hc => ?_
  rw [State.lineMark, PerLink.get_map, LinkState.offerLine] at hc
  split at hc
  · rcases LinkState.offer_latch hc with hold | rfl
    · exact h.latches l c hold
    · exact h.capture hp .line
  · exact h.latches l c hc

end

/-- Every event keeps the field values of ring and latches within the bound. -/
theorem State.valuesKept_ledByEvents : LedByEvents State.ValuesKept State.ValuesBounded where
  stay _ h := h.bounded
  time s w h hw := by
    refine ⟨h.sameRing (State.advance_ring w s) (.ofSame (fun l => by rw [State.advance_links]; rfl) h.latches), fun _ => ?_,
      h.field.advance hw⟩
    exact (h.cal hw.1).advance hw
  powerOn s _ := ⟨(fun _ hq => by cases hq), fun l _ hc => by cases l <;> cases hc⟩
  warm s h _ _ := h.sameRing rfl fun l _ hc => by
    rw [show s.warm.links = s.links.map (fun k => LinkState.atReset k.ready k.cursor) from rfl, PerLink.get_map] at hc
    cases hc
  resetRequest s h _ := h.sameRing rfl h.latches
  boundary s sn h _ _ := h.scale (.boundary s false sn)
  strobe s k codeX codeY codeZ d h hp _ _ := h.strobeWork hp k codeX codeY codeZ d
  midpoint s h _ _ _ := h.scale (.closeWindow s)
  pps s h _ := h.scale (.ppsRecognised s)
  conversion s ch r h _ _ := by
    unfold State.takeConversion
    dsimp only
    split <;> cases ch
    · exact h.sameRing rfl h.latches
    · exact h.sameRing rfl h.latches
    · exact h.sameRing rfl (.map rfl (fun _ => rfl) h.latches)
    · exact h.sameRing rfl (.map rfl (fun _ => rfl) h.latches)
  lineMark s h hp := h.lineMark hp
  expire s l _ h _ _ := h.sameRing rfl (.onLink l (fun _ => rfl) (.ofLinks rfl h.latches))
  endWrite s w success h _ _ := h.sameRing (CommandFrame.endWrite s w success).ring (h.latches.endWrite w success)
  ready s l _ h _ := h.onLink l (fun _ => rfl)
  framingError s l h _ _ := h.onLink l (fun _ => rfl)
  timeOut s l h _ := h.onLink l (fun _ => rfl)
  dropBad s l h _ := h.onLink l (fun _ => rfl)
  takeByte s l _ _ h _ _ := h.onLink l (fun _ => rfl)
  holdByte s l h _ _ := h.onLink l (fun _ => rfl)
  acceptFrame s l _ c h hp _ := h.sameRing (CommandFrame.acceptFrame s l c).ring
    (h.latches.acceptFrame l (h.capture hp .command) c)
  handOver s l c h hp := h.sameRing (CommandFrame.handOver s l c).ring (h.latches.handOver l (h.capture hp .command) c)
  startBreak s l h _ := h.sameRing rfl (.onLink l (fun _ => rfl) (.ofLinks rfl h.latches))
  endBreak s l h _ _ := h.onLink l (fun _ => rfl)
  beginReply s l h _ _ := h.onLink l LinkState.beginReply_latch
  endReply s l h hp := h.sameRing (CommandFrame.endReply s l).ring (h.latches.endReply l (h.capture hp .command))
  beginTransfer s l h _ _ := by
    unfold State.beginTransferFrame
    dsimp only
    split
    · exact h.bounded
    · exact h.onLink l (fun _ => rfl)
  endTransfer s l h _ := h.onLink l (LinkState.endTransferFrame_latch _)
  beginStream s l h _ _ := by
    unfold State.beginStreamFrame
    dsimp only
    split
    · exact h.bounded
    · exact h.onLink l (fun _ => rfl)
  endStream s l h _ := h.onLink l LinkState.endStreamFrame_latch
  powerLoss s _ h _ := h.sameRing rfl h.latches

end Sys2Proof.Machine

namespace Sys2Proof.Proofs

open Sys2Proof.Machine

/-- Settles O16: `State.strobeWork_records` for the record, `State.captureAxis_bounded` for the capture, and
`State.valuesKept_ledByEvents` for the step. -/
theorem fieldValuesStayWithinTheBound : Obligations.FieldValuesStayWithinTheBound := by
  refine ⟨?strobe, fun s hcal hfield x v hv => State.captureAxis_bounded hcal hfield hv, ?step⟩
  case strobe =>
    intro s codeX codeY codeZ d k hcal hfield hk hw
    refine ⟨_, exec_strobe codeX codeY codeZ d hk hw, fun q hq => ?_⟩
    rw [← State.advance_ring (500000 + 1000000 * k - s.epoch.tickPos) s]
    exact State.strobeWork_records (hcal.advance hw) (hfield.advance hw) k codeX codeY codeZ d q hq
  case step =>
    intro s t hbounded hcal hfield hstep
    exact State.valuesKept_ledByEvents.step
      (fun _ _ h => ⟨⟨h.bounded.records, h.bounded.latches⟩, fun hp => (h.cal hp).frame ⟨rfl, rfl, rfl⟩,
        h.field.frame ⟨rfl, rfl, rfl, rfl, rfl, rfl, rfl⟩⟩) ⟨hbounded, hcal, hfield⟩ hstep

end Sys2Proof.Proofs
end
